-- ==== Sys2Proof/Word.lean ====
section
/-! DEFINITION. The word types of the TZ618: what the manual treats as bits (00_scope.md, Conventions; 12_record_and_line_formats.md). -/

namespace Sys2Proof

/-- A word of memory is 32 bits (00_scope.md, "Addresses, words and lines"). -/
abbrev Word := BitVec 32

/-- A byte lane of a word. -/
abbrev Byte := BitVec 8

/-- The byte-lane mask of one written word: bit n names lane n, lane 0 the lowest-addressed byte. -/
abbrev Lanes := BitVec 4

end Sys2Proof
end

