-- ==== Sys2Proof/Syntax.lean ====
section
/-! DEFINITION. The commands of the TZ618: one constructor of `Instr` for each row of spec/opcode_table.json, and the
transfers (R121) that arrive at its upstream ports. -/

namespace Sys2Proof

/-- The two upstream ports of a transfer (R121). -/
inductive Port where
  | coach
  | panel
  deriving DecidableEq, Repr

/-- One written word of a transfer: its data and its byte-lane mask (R121). -/
structure WWord where
  data  : Word
  lanes : Lanes
  deriving DecidableEq, Repr

/-- A transfer as presented at an upstream port, with the fields of R121. A read carries no words. -/
structure Transfer where
  port  : Port
  write : Bool
  line  : Nat
  first : Nat
  count : Nat
  words : List WWord
  lock  : Bool
  deriving DecidableEq, Repr

/-- The two alias windows (R108). -/
inductive Win where
  | banner
  | route
  deriving DecidableEq, Repr

/-- The commands: the rows of spec/opcode_table.json, in its order. A row takes an operand only for what comes from
outside the part: the straps, a transfer's fields, the memory's answer (`true` for DONE, `false` for FAULT), and which of the two
windows a latch timeout is about. No row tells of an edge of the other polarity of the WHEEL line (R28; log 25). Everything else a step acts on stands in `State`. -/
inductive Instr where
  | resetAsserted
  | resetReleased (psel1 psel0 : Bool)
  | doorReleaseAcceptance
  | doorClosedAcceptance
  | pulse
  | pulseRejected
  | windowEnd
  | clockAdvance
  | dwellExpiry
  | chimePulseEnd
  | remapLatchTimeout (w : Win)
  | lockIdleExpiry
  | phaseToggle
  | transferArrival (t : Transfer)
  | coachRead
  | coachWrite
  | postedWrite
  | commit
  | panelRead
  | grant
  | passingTransferAnswer (ok : Bool)
  | postAnswer (ok : Bool)
  | commitWriteAnswer (ok : Bool)
  | commitFetchAnswer (ok : Bool)
  | profileLineReadAnswer (ok : Bool)
  | writebackCompletion (ok : Bool)
  | ackWrite
  | profileCommit
  | routeRecord
  | routeRecordEmpty
  | reservationRecord
  | void
  | positionFix
  | stopCalled
  | stopSkipped
  | stopRestored
  | depart
  | delay
  | clock
  | portionSet
  | orientation
  | noticeAdd
  | noticeCancel
  | journeyReset
  | presentedTransferFinished (ok : Bool)
  deriving DecidableEq, Repr

end Sys2Proof
end

