-- ==== Sys2Proof/Config.lean ====
section
/-! DEFINITION. The fixed sizes of the TZ618, and the values the manual leaves open as opaque constants. -/

namespace Sys2Proof.Config

/-- The highest line number of the 64 MiB space (00_scope.md, R121). -/
def maxLine : Nat := 2097151

/-- Slots of the Route Table (R1). -/
def routeSlots : Nat := 48

/-- Entries of the Line Store (R86). -/
def storeCap : Nat := 32

/-- Held lines at and above which write-backs are urgent (R98). -/
def urgentAt : Nat := 24

/-- Entries of the Post Buffer (R133). -/
def postCap : Nat := 4

/-- Records of the Intake Queue (R149). -/
def intakeCap : Nat := 8

/-- Coach computer entries the Notice Queue has room for; one more place is kept for AUTO (R67). -/
def coachNoticeCap : Nat := 15

/-- Reservation slots (R42). -/
def reservationSlots : Nat := 512

/-- Seats (00_scope.md, "Record slots and indices"). -/
def seats : Nat := 128

/-- Grants a locked sequence may span (R144, R146). -/
def lockCap : Nat := 16

/-- Ticks of the lock idle timer (R144). -/
def lockIdleTicks : Nat := 10

/-- Ticks of a window latch timer (R113). -/
def latchTicks : Nat := 50

/-- Consecutive opposite door samples that change the accepted level (R11). -/
def doorSamples : Nat := 5

/-- Ticks of one odometry window (R30). -/
def windowTicks : Nat := 100

/-- Ticks of one clock minute (R38). -/
def minuteTicks : Nat := 6000

/-- Period of the phase tick count (R116). -/
def phasePeriod : Nat := 512

/-- The highest position, in mm (R29). -/
def maxPosition : Nat := 4000000000

/-- Saturation of the window distance, in mm (R29). -/
def maxWindow : Nat := 1000000

/-- FREE VALUE (log 4): the byte a write answered FAULT by the memory leaves behind ("whatever the failed
write left", R97, R128, R133, R135). The argument is the model's counter of free values drawn. -/
opaque freeByte : Nat → Byte

/-- FREE VALUE (log 5): which of the events due at one tick is taken first, where the manual gives the
outcome of each order and no order (00_scope.md, "Events"; R79, R83, R115, R117). -/
opaque tickOrder : Nat → Nat

/-- FREE VALUE (log 6): one more than the reference stop that the SEAT_OVERLAP test of R47 uses in NO_ROUTE
and ENDED, where R52 gives none ("Not used"). -/
opaque freeReference : Nat → Nat

/-- FREE VALUE (log 39): whether the answer that frees the memory port is taken before the part fetch that is presented with it,
where the manual gives the outcome of each order and no order (R139, R146). -/
opaque answerFirst : Nat → Bool

end Sys2Proof.Config
end

