-- ==== Sys2Proof/Machine/State.lean ====
section
/-! DEFINITION. The state of the TZ618, block by block as the manual lists them (00_scope.md, "Block overview"), with the
reset value of each field as its default, and the reasons a step can stop. -/

namespace Sys2Proof.Machine

/-! ### Route Tracker (01_route_and_progress.md) -/

/-- The two kinds of stop entry (R1). -/
inductive StopKind where
  | call
  | pass
  deriving DecidableEq, Repr

/-- Platform side (R1). -/
inductive Side where
  | none
  | left
  | right
  | both
  deriving DecidableEq, Repr

/-- Status of a stop entry (R2). -/
inductive Status where
  | ahead
  | target
  | current
  | passed
  | skipped
  | missed
  | notServed
  deriving DecidableEq, Repr

/-- A valid entry of the Route Table (R1). A minute that is "not given" is `none`. -/
structure StopEntry where
  code     : Nat
  kind     : StopKind
  post     : Nat
  arr      : Option Nat
  dep      : Option Nat
  side     : Side
  mask     : BitVec 4
  textBase : Nat
  status   : Status
  deriving DecidableEq, Repr

/-- The progress state (01_route_and_progress.md, "The progress state"). -/
inductive Progress where
  | noRoute
  | preJourney
  | standing
  | departed
  | running
  | approaching
  | arriving
  | halted
  | ended
  deriving DecidableEq, Repr

/-- What the Route Tracker holds. CURRENT and TARGET are the entries with those statuses (R2). `stripLast` is, for each
strip line, the expected time and lateness it was last composed with (R40: a receiving block compares with the line it
last composed) (DESIGN CHOICE, log 27). -/
structure Route where
  table        : List (Option StopEntry) := List.replicate Config.routeSlots none
  progress     : Progress := .noRoute
  lastMissed   : Option Nat := none
  departFlag   : Bool := false
  portion      : Nat := 0
  reversed     : Bool := false
  delay        : Nat := 0
  clock        : Option Nat := none
  clockTicks   : Nat := 0
  stripSeq     : Nat := 0
  stripPending : List Nat := []
  stripLast    : List (Option Nat × Option Int) := List.replicate Config.routeSlots (none, none)
  deriving DecidableEq, Repr

/-! ### Odometry Unit and DOOR filter (02_speed_and_arrival_estimate.md, R11) -/

/-- The published estimate (R35, R36). -/
structure Estimate where
  value : Nat := 0
  valid : Bool := false
  held  : Bool := false
  deriving DecidableEq, Repr

/-- What the Odometry Unit and the two input filters hold. `ring` is the window ring, oldest first. `doorLevel` is the
accepted door level, true for released (R11). `wheelLevel` is the level of the WHEEL filter, `none` until the first
level after reset has been sampled (R41). -/
structure Odo where
  doorLevel  : Bool := false
  doorCount  : Nat := 0
  wheelLevel : Option Bool := none
  position   : Nat := 0
  remUm      : Nat := 0
  winDist    : Nat := 0
  ring       : List Nat := [0, 0, 0, 0]
  speed      : Nat := 0
  repSpeed   : Nat := 0
  stableRun  : Nat := 0
  settled    : Bool := false
  est        : Estimate := {}
  winTimer   : Nat := 0
  deriving DecidableEq, Repr

/-! ### Seat Resolver (03_seat_reservations.md) -/

/-- The four reserving kinds (R42). -/
inductive ResKind where
  | standard
  | group
  | accessible
  | blocked
  deriving DecidableEq, Repr

/-- An ACTIVE entry of the Reservation Pool (R42). -/
structure Reservation where
  seat      : Nat
  fromCode  : Nat
  toCode    : Nat
  kind      : ResKind
  text      : Option Nat
  boundFrom : Option Nat
  boundTo   : Option Nat
  deriving DecidableEq, Repr

/-- Seat states (R53). -/
inductive SeatState where
  | none
  | blocked
  | overlap
  | occupied
  | fromNext
  | freeUntil
  | free
  deriving DecidableEq, Repr

/-- Label attributes (R53). -/
inductive Attr where
  | steady
  | blink
  | alternate
  deriving DecidableEq, Repr

/-- A text reference of a seat label (R54). -/
inductive TextRef where
  | none
  | label (b : Nat)
  | stop (b : Nat)
  deriving DecidableEq, Repr

/-- The content of a seat label: the fields of R58. -/
structure SeatContent where
  state     : SeatState := .none
  attr      : Attr := .steady
  kind      : Option ResKind := none
  primary   : TextRef := .none
  alternate : TextRef := .none
  stop      : Nat := 0
  deriving DecidableEq, Repr

/-- The seat flags and the composition sequence of one seat (R58). -/
structure SeatRec where
  composed : Bool := false
  last     : SeatContent := {}
  seq      : Nat := 0
  deriving DecidableEq, Repr

/-- What the Seat Resolver holds. `pool` lists the ACTIVE slots with their reservations, slots rising; a slot not listed
is EMPTY (R42). A seat's ordered list is the sorted view of it that R46 fixes. -/
structure Seats where
  pool    : List (Nat × Reservation) := []
  recs    : List SeatRec := List.replicate Config.seats {}
  pending : List Nat := []
  deriving DecidableEq, Repr

/-! ### Notice Sequencer (04_next_stop_notices.md) -/

/-- Notice classes (R66). -/
inductive NClass where
  | info
  | connection
  | delay
  | urgent
  | auto
  deriving DecidableEq, Repr

/-- Stage tags of the AUTO entry (R73). -/
inductive Stage where
  | departed
  | approaching
  | arriving
  | standing
  deriving DecidableEq, Repr

/-- When an entry leaves the queue by itself (R66). -/
inductive Expiry where
  | untilCancel
  | untilDepart (code : Nat)
  | showCount (n : Nat)
  deriving DecidableEq, Repr

/-- An entry of the Notice Queue (R66). `auto` is the stage tag and subject slot of the AUTO entry (R72). -/
structure Notice where
  id       : Nat
  cls      : NClass
  priority : Nat
  text     : Nat
  dwell    : Nat
  expiry   : Expiry
  chime    : Bool
  shown    : Bool
  auto     : Option (Stage × Nat)
  deriving DecidableEq, Repr

/-- The fields of the Banner line (R81). -/
structure BannerFields where
  cls      : Option NClass := none
  stage    : Option Stage := none
  id       : Nat := 0
  text     : Nat := 0
  stop     : Nat := 0
  textBase : Nat := 0
  side     : Side := .none
  est      : Estimate := {}
  expected : Option Nat := none
  lateness : Option Int := none
  seq      : Nat := 0
  deriving DecidableEq, Repr

/-- What the Notice Sequencer holds. `mark` is the rotation mark: the id of the entry it names, `none` for the front
(R67). `chimeTimer` is the chime pulse timer, `none` when idle; CHIME is asserted exactly while it runs (R83). -/
structure Notices where
  queue         : List Notice := []
  mark          : Option Nat := none
  dwell         : Nat := 0
  seq           : Nat := 0
  bannerPending : Bool := false
  last          : BannerFields := {}
  chimeTimer    : Option Nat := none
  deriving DecidableEq, Repr

/-! ### Line Store (05_the_line_store_and_frame_composition.md) -/

/-- An entry of the Line Store (R86). `whole` is the word mask: words 0 to 7 when true, words 0 to 3 when false (R87).
`writing` is the state WRITING. The age position is the entry's place in the store's list, oldest first (R92). -/
structure Entry where
  line    : Nat
  whole   : Bool
  data    : List Word
  writing : Bool
  succ    : Option (List Word)
  deriving DecidableEq, Repr

/-! ### Alias windows and Phase Generator (06_alias_windows_and_display_phase.md) -/

/-- A LATCHED latch: its latched target (`none` for no target) and its timer (R113). -/
structure Latch where
  target : Option Nat
  timer  : Nat
  deriving DecidableEq, Repr

/-- The window state of the Transfer Router: the banner window's current target, the Router's copies of the CURRENT
slot and the orientation, from which the route window base follows (R110), and the two latches (`none` when FREE). -/
structure Windows where
  bannerTarget : Option Nat := none
  current      : Option Nat := none
  reversed     : Bool := false
  bannerLatch  : Option Latch := none
  routeLatch   : Option Latch := none
  deriving DecidableEq, Repr

/-- What the Phase Generator holds (R116, R117). `plane` is true for ALTERNATE, `blink` true for ON. -/
structure Phase where
  tick     : Nat := 0
  plane    : Bool := false
  blink    : Bool := true
  blankAll : Bool := true
  seq      : Nat := 0
  pending  : Bool := false
  deriving DecidableEq, Repr

/-! ### Transfer Router (07_transfers_on_the_memory_path.md) -/

/-- One aperture: base line, length in lines (0 for absent), and its two attributes (R124). -/
structure Aperture where
  base    : Nat := 0
  len     : Nat := 0
  posted  : Bool := false
  lenient : Bool := false
  deriving DecidableEq, Repr

/-- The ten apertures and the open region's posted attribute (R124). The Aperture Map is one of these, the apertures of
the profile copy another. -/
structure Apertures where
  route        : Aperture := {}
  reservation  : Aperture := {}
  message      : Aperture := {}
  ack          : Aperture := {}
  report       : Aperture := {}
  seatLabel    : Aperture := {}
  routeStrip   : Aperture := {}
  bannerWindow : Aperture := {}
  routeWindow  : Aperture := {}
  text         : Aperture := {}
  openPosted   : Bool := false
  deriving DecidableEq, Repr

/-- The answer the part gives to an upstream transfer (R121): DONE with the data of a read, RETRY or FAULT. -/
inductive Answer where
  | done (data : List Word)
  | retry
  | fault
  deriving DecidableEq, Repr

/-- One transfer at the memory port: `count` words of a line from a first word, with data and lanes when it writes. -/
structure MemReq where
  write : Bool
  line  : Nat
  first : Nat
  count : Nat
  words : List WWord
  deriving DecidableEq, Repr

/-- The treatment a coach computer transfer was given at take-up (R125). A read carries the index of the REPORT line it
reads, if any, and whether it is compared with the Line Store (not in LOADING and PASSIVE, R136). -/
inductive CoachKind where
  | read (report : Option Nat) (overlay : Bool)
  | write
  | ack
  | profile
  | commit
  deriving DecidableEq, Repr

/-- Where an upstream transfer stands between its moments (R123): arrived and not taken up; taken up and asking for the
memory port; its memory transfer under way. -/
inductive Moment where
  | arrived
  | waiting
  | underWay
  deriving DecidableEq, Repr

/-- The coach computer's outstanding transfer. `req` and `kind` are what take-up made of it. -/
structure CoachTx where
  t      : Transfer
  moment : Moment
  kind   : CoachKind
  req    : MemReq
  deriving DecidableEq, Repr

/-- The panel scanner's outstanding read. `posts` is how many entries of the Post Buffer it waits for (R134), `req` the
read as rewritten, `frees` the window whose last offset it reads (R114). -/
structure PanelTx where
  t       : Transfer
  moment  : Moment
  posts   : Nat
  req     : MemReq
  overlay : Bool
  frees   : Option Win
  deriving DecidableEq, Repr

/-- Record kinds (R149). -/
inductive RecKind where
  | route
  | reservation
  | message
  deriving DecidableEq, Repr

/-- The commit in progress (R128): `fetching` is the step FETCHING, otherwise WRITING. -/
structure Commit where
  line     : Nat
  kind     : RecKind
  slot     : Nat
  lock     : Bool
  fetching : Bool
  deriving DecidableEq, Repr

/-- An entry of the Post Buffer (R133). -/
structure Post where
  line  : Nat
  first : Nat
  words : List WWord
  deriving DecidableEq, Repr

/-- What the Transfer Router holds for the memory path. `coachAnswer` and `panelAnswer` are the answer each port was last
given, `none` while a transfer is outstanding or before the first. -/
structure Router where
  map         : Apertures := {}
  posts       : List Post := []
  coach       : Option CoachTx := none
  panel       : Option PanelTx := none
  commit      : Option Commit := none
  coachAnswer : Option Answer := none
  panelAnswer : Option Answer := none
  deriving DecidableEq, Repr

/-! ### Memory Port Arbiter (08_memory_port_arbitration.md) -/

/-- Whose transfer is at the memory port (R139). `profileLine true` is the read of a discarded fetch (R174); `abandoned`
is a transfer that RESET found already presented (R148). -/
inductive Owner where
  | coach
  | panel
  | post
  | commitFetch
  | profileLine (discarded : Bool)
  | writeback
  | abandoned
  deriving DecidableEq, Repr

/-- The transfer the memory port is busy with. `data` is what a read returns when the memory answers DONE, fixed at the
grant (R139): memory's words, with the overlay of covered ones (R101). -/
structure Presented where
  owner : Owner
  req   : MemReq
  data  : List Word
  deriving DecidableEq, Repr

/-- What the Arbiter holds: the port's transfer (`none` when free), the lock state with its count and idle timer (`none`
when stopped) (R143), and the last-grant flag, true for STORE (R141). `fetchLate` is the model's own: the part fetch came after the
answer that freed the port, so that another request that stands is granted before it (R139; log 39). -/
structure Arbiter where
  port      : Option Presented := none
  locked    : Bool := false
  count     : Nat := 0
  idle      : Option Nat := none
  lastStore : Bool := false
  fetchLate : Bool := false
  deriving DecidableEq, Repr

/-! ### Record Intake (09_record_intake.md) -/

/-- The fields of a CALL or PASS route record (R4, R184). -/
structure RouteFields where
  kind     : StopKind
  code     : Nat
  post     : Nat
  arr      : Option Nat
  dep      : Option Nat
  side     : Side
  mask     : BitVec 4
  textBase : Nat
  deriving DecidableEq, Repr

/-- The arguments of NOTICE_ADD (R155). -/
structure NoticeArgs where
  id       : Nat
  cls      : NClass
  priority : Nat
  text     : Nat
  dwell    : Nat
  expiry   : Expiry
  chime    : Bool
  deriving DecidableEq, Repr

/-- The twelve message kinds with their arguments (R155). -/
inductive Message where
  | positionFix (p : Nat)
  | stopCalled (code : Nat)
  | stopSkipped (code : Nat)
  | stopRestored (code : Nat)
  | depart
  | delay (minutes : Nat)
  | clock (minute : Option Nat)
  | portionSet (portion : Nat)
  | orientation (reversed : Bool)
  | noticeAdd (a : NoticeArgs)
  | noticeCancel (id : Nat)
  | journeyReset
  deriving DecidableEq, Repr

/-- The checked contents of a record (R149). -/
inductive Contents where
  | route (f : RouteFields)
  | routeEmpty
  | reserve (seat fromCode toCode : Nat) (kind : ResKind) (text : Option Nat)
  | void
  | message (m : Message)
  deriving DecidableEq, Repr

/-- A record of the Intake Queue (R149). -/
structure Record where
  slot     : Nat
  contents : Contents
  deriving DecidableEq, Repr

/-- What Record Intake holds: the queue, head first, and the reserved place (R149, R150). -/
structure Intake where
  queue    : List Record := []
  reserved : Bool := false
  deriving DecidableEq, Repr

/-! ### Report Unit (10_events_counters_and_report_lines.md) -/

/-- BAD_RECORD reasons (R182). -/
inductive Reason where
  | order
  | past
  | inUse
  | noStop
  | noNotice
  | range
  | kind
  | state
  | fetchFault
  deriving DecidableEq, Repr

/-- The fields of the Position line but its sequence (R168). -/
structure PositionFields where
  posM      : Nat := 0
  repSpeed  : Nat := 0
  settled   : Bool := false
  est       : Estimate := {}
  progress  : Progress := .noRoute
  current   : Nat := 0
  target    : Nat := 0
  remaining : Option Nat := none
  clock     : Option Nat := none
  delay     : Nat := 0
  expected  : Option Nat := none
  deriving DecidableEq, Repr

/-- The Arrival line's state and fields (R170): `fresh` is the state FRESH, otherwise EMPTY. -/
structure Arrival where
  fresh    : Bool := false
  stop     : Nat := 0
  clock    : Option Nat := none
  posM     : Nat := 0
  lateness : Option Int := none
  deriving DecidableEq, Repr

/-- How the part last entered ACTIVE (R165). -/
inductive Cause where
  | start
  | reload
  deriving DecidableEq, Repr

/-- The Position read latch while ON (R169). -/
structure ReadLatch where
  count   : Nat
  started : Bool
  deriving DecidableEq, Repr

/-- What the Report Unit holds. Factors and enable mask are numbered bits (R182, R185); counters and shown values stand in
the order of R161. -/
structure Report where
  factors      : BitVec 14 := 0
  mask         : BitVec 14 := BitVec.allOnes 14
  counters     : List Nat := List.replicate 14 0
  shown        : List Nat := List.replicate 14 0
  lastBad      : Option (Reason × RecKind × Nat) := none
  arrival      : Arrival := {}
  posM         : Nat := 0
  repSpeed     : Nat := 0
  settled      : Bool := false
  posLast      : PositionFields := {}
  latch        : Option ReadLatch := none
  pendEvent    : Bool := false
  pendCounter  : Bool := false
  pendPosition : Bool := false
  pendArrival  : Bool := false
  seqEvent     : Nat := 0
  seqCounter   : Nat := 0
  seqPosition  : Nat := 0
  seqArrival   : Nat := 0
  cause        : Option Cause := none
  deriving DecidableEq, Repr

/-! ### Profile Loader (11_profile_start_up_and_restarts.md) -/

/-- The part state (R172). -/
inductive PartState where
  | loading
  | active
  | reloading
  | passive
  deriving DecidableEq, Repr

/-- The parameters of the profile, as in use (R27, R176); the defaults are the manual's. `noise` is the noise width in ms,
0 for OFF; `falling` the counting edge FALLING; the four `chime…` flags the chime-stage set. -/
structure Params where
  pulseUm         : Nat := 157080
  noise           : Nat := 0
  falling         : Bool := false
  minSpeed        : Nat := 1000
  hysteresis      : Nat := 300
  stableWindows   : Nat := 4
  approachM       : Nat := 3000
  approachMin     : Nat := 3
  arriveM         : Nat := 400
  departM         : Nat := 800
  passMargin      : Nat := 1500
  fixTol          : Nat := 200
  dwell           : Nat := 500
  chimeLen        : Nat := 50
  chimeDeparted   : Bool := false
  chimeApproach   : Bool := true
  chimeArriving   : Bool := false
  chimeStanding   : Bool := true
  planeExp        : Nat := 7
  blinkExp        : Nat := 5
  deriving DecidableEq, Repr

/-- The profile copy (R176): before any profile has passed, no apertures, no seat count, and default parameters. -/
structure Profile where
  aps       : Apertures := {}
  seatCount : Nat := 0
  params    : Params := {}
  deriving DecidableEq, Repr

/-- What the Profile Loader holds. `base` is the line number of the profile base; `fetch` the words read by the fetch in
progress, eight for each line read (R174); `drained` the drain mark. -/
structure Loader where
  part    : PartState := .loading
  base    : Nat := 0
  profile : Profile := {}
  fetch   : Option (List Word) := none
  drained : Bool := false
  deriving DecidableEq, Repr

/-! ### The whole part -/

/-- The input lines as last seen: RESET asserted, DOOR asserted, the level of WHEEL, and the straps. The outputs NOTIFY and CHIME follow from
the factors and mask (R163) and from the chime timer (R83). -/
structure Pins where
  reset : Bool := true
  door  : Bool := false
  wheel : Bool := false
  psel1 : Bool := false
  psel0 : Bool := false
  deriving DecidableEq, Repr

/-- The memory behind the memory port: (byte address, byte) pairs, addresses strictly rising, no byte listed that equals
what an unlisted address reads as. -/
abbrev Memory := List Host.Cell

/-- The state of the part, the memory behind it, the counter of free values drawn (the model's own), and the queue of
commands that wait, first in first out. -/
structure State where
  pins    : Pins := {}
  loader  : Loader := {}
  router  : Router := {}
  windows : Windows := {}
  arb     : Arbiter := {}
  intake  : Intake := {}
  route   : Route := {}
  odo     : Odo := {}
  seats   : Seats := {}
  notices : Notices := {}
  store   : List Entry := []
  phase   : Phase := {}
  report  : Report := {}
  mem     : Memory := []
  free    : Nat := 0
  pending : List Instr := []
  deriving DecidableEq, Repr

/-- The machine right after reset: every block at its after-RESET values, RESET still asserted (R181)
(DESIGN CHOICE, log 9; DESIGN CHOICE, log 28). -/
def State.reset : State := {}

/-- Why the machine stops with a fault. -/
inductive Fault where
  /-- Raised by `execTransferArrival` for a transfer whose line is above 2,097,151, an address the manual says does not
  exist (R121). Safe: no transfer of the manual names one. -/
  | noSuchLine
  deriving DecidableEq, Repr

/-- Why a command has no meaning. -/
inductive Refusal where
  /-- Raised by `exec` for a command that has no meaning yet. Safe. No arm raises it. -/
  | notModelled (mnemonic : String)
  /-- Raised by `execTransferArrival` for operands that are no transfer of R121 (a word count of 0 or above 8, a first
  word above 7, data that does not fit the count, a lock flag on the panel port). Safe: the manual has no such command. -/
  | notATransfer
  deriving DecidableEq, Repr

end Sys2Proof.Machine
end

