-- ==== Sys2Proof/Machine/Ops.lean ====
section
/-! DEFINITION. The named operations over memory, over the blocks of `State`, and over the Aperture Map. -/

namespace Sys2Proof.Machine

/-! ### Memory: bytes, words in little-endian order, runs of words (00_scope.md, "Addresses, words and lines") -/

/-- What a byte of memory that nothing has written reads as. DESIGN CHOICE (log 3): the manual gives memory no contents
before it is written. -/
def Memory.blank : Byte := 0

/-- Read one byte. -/
def Memory.read : Memory → Nat → Byte
  | [], _ => Memory.blank
  | (k, b) :: r, a => if k = a then b else Memory.read r a

/-- Write one byte, keeping the canonical form. -/
def Memory.write : Memory → Nat → Byte → Memory
  | [], a, b => if b = Memory.blank then [] else [(a, b)]
  | (k, c) :: r, a, b =>
    if a < k then (if b = Memory.blank then (k, c) :: r else (a, b) :: (k, c) :: r)
    else if a = k then (if b = Memory.blank then r else (k, b) :: r)
    else (k, c) :: Memory.write r a b

/-- The canonical form above a least address. -/
def Memory.wfFrom : Nat → Memory → Bool
  | _, [] => true
  | lo, (k, b) :: r => decide (lo ≤ k) && decide (b ≠ Memory.blank) && Memory.wfFrom (k + 1) r

/-- The canonical form: addresses strictly rising, no listed byte equal to a blank one. -/
def Memory.wf (m : Memory) : Bool := Memory.wfFrom 0 m

/-- The byte address of a lane of a word of a line. -/
def byteAddr (line word lane : Nat) : Nat := line * 32 + word * 4 + lane

/-- A word as memory holds it: lane 0 is the lowest-addressed byte. -/
def Memory.word (m : Memory) (line word : Nat) : Word :=
  ((m.read (byteAddr line word 3) ++ m.read (byteAddr line word 2) : BitVec 16)
    ++ (m.read (byteAddr line word 1) ++ m.read (byteAddr line word 0) : BitVec 16) : BitVec 32)

/-- `n` consecutive words of a line. -/
def Memory.words (m : Memory) (line : Nat) : Nat → Nat → List Word
  | _, 0 => []
  | first, n + 1 => m.word line first :: Memory.words m line (first + 1) n

/-- Byte lane `n` of a word. -/
def laneByte (w : Word) (n : Nat) : Byte := w.extractLsb' (8 * n) 8

/-- Write one lane of a word when its mask names it. -/
def Memory.writeLane (m : Memory) (line word : Nat) (ww : WWord) (lane : Nat) : Memory :=
  if ww.lanes.getLsbD lane then m.write (byteAddr line word lane) (laneByte ww.data lane) else m

/-- Write the named lanes of one word. -/
def Memory.writeWord (m : Memory) (line word : Nat) (ww : WWord) : Memory :=
  (((m.writeLane line word ww 0).writeLane line word ww 1).writeLane line word ww 2).writeLane line word ww 3

/-- Write consecutive words of a line with their byte lanes. -/
def Memory.writeWords (m : Memory) (line : Nat) : Nat → List WWord → Memory
  | _, [] => m
  | first, ww :: rest => Memory.writeWords (m.writeWord line first ww) line (first + 1) rest

/-- Write `n` free bytes from an address upwards: what a failed write leaves (log 4). -/
def Memory.scribble (m : Memory) (free addr : Nat) : Nat → Memory
  | 0 => m
  | n + 1 => Memory.scribble (m.write addr (Config.freeByte free)) (free + 1) (addr + 1) n

/-! ### One block of the state replaced -/

def State.setPins (s : State) (x : Pins) : State := { s with pins := x }
def State.setLoader (s : State) (x : Loader) : State := { s with loader := x }
def State.setRouter (s : State) (x : Router) : State := { s with router := x }
def State.setWindows (s : State) (x : Windows) : State := { s with windows := x }
def State.setArb (s : State) (x : Arbiter) : State := { s with arb := x }
def State.setIntake (s : State) (x : Intake) : State := { s with intake := x }
def State.setRoute (s : State) (x : Route) : State := { s with route := x }
def State.setOdo (s : State) (x : Odo) : State := { s with odo := x }
def State.setSeats (s : State) (x : Seats) : State := { s with seats := x }
def State.setNotices (s : State) (x : Notices) : State := { s with notices := x }
def State.setStore (s : State) (x : List Entry) : State := { s with store := x }
def State.setPhase (s : State) (x : Phase) : State := { s with phase := x }
def State.setReport (s : State) (x : Report) : State := { s with report := x }
def State.setMem (s : State) (x : Memory) : State := { s with mem := x }
def State.setFree (s : State) (x : Nat) : State := { s with free := x }
def State.setPending (s : State) (x : List Instr) : State := { s with pending := x }

/-! ### Part state, parameters, apertures -/

/-- The parameters in use: those of the profile copy (R176). -/
def State.params (s : State) : Params := s.loader.profile.params

/-- The part acts: the part state is ACTIVE (and RESET is not asserted). -/
def State.active (s : State) : Bool := !s.pins.reset && decide (s.loader.part = .active)

/-- The part state is ACTIVE or RELOADING: apertures are in force (R124). -/
def State.mapped (s : State) : Bool :=
  !s.pins.reset && (decide (s.loader.part = .active) || decide (s.loader.part = .reloading))

/-- A line lies in an aperture (R124). -/
def Aperture.has (a : Aperture) (line : Nat) : Bool := decide (a.base ≤ line) && decide (line < a.base + a.len)

/-- The aperture is present (00_scope.md: a length of zero means absent). -/
def Aperture.present (a : Aperture) : Bool := decide (0 < a.len)

/-- Where a line lies (R124). -/
inductive Place where
  | route
  | reservation
  | message
  | ack
  | report
  | seatLabel
  | routeStrip
  | bannerWindow
  | routeWindow
  | text
  | profileBlock
  | openRegion
  deriving DecidableEq, Repr

/-- A line of the Profile Block: one of the four lines from the strap base (R124, R173). -/
def inProfileBlock (base line : Nat) : Bool := decide (base ≤ line) && decide (line < base + 4)

/-- The kind of a line under an Aperture Map and a profile base (R124). -/
def Apertures.place (m : Apertures) (base line : Nat) : Place :=
  if m.route.has line then .route
  else if m.reservation.has line then .reservation
  else if m.message.has line then .message
  else if m.ack.has line then .ack
  else if m.report.has line then .report
  else if m.seatLabel.has line then .seatLabel
  else if m.routeStrip.has line then .routeStrip
  else if m.bannerWindow.has line then .bannerWindow
  else if m.routeWindow.has line then .routeWindow
  else if m.text.has line then .text
  else if inProfileBlock base line then .profileBlock
  else .openRegion

/-- The kind of a line as the Router finds it at take-up. -/
def State.place (s : State) (line : Nat) : Place := s.router.map.place s.loader.base line

/-- The posted attribute that governs a kind (R124, R132): the Profile Block is never posted (R130). -/
def Apertures.posted (m : Apertures) (p : Place) : Bool :=
  match p with
  | .route => m.route.posted
  | .reservation => m.reservation.posted
  | .message => m.message.posted
  | .ack => m.ack.posted
  | .report => m.report.posted
  | .seatLabel => m.seatLabel.posted
  | .routeStrip => m.routeStrip.posted
  | .bannerWindow => m.bannerWindow.posted
  | .routeWindow => m.routeWindow.posted
  | .text => m.text.posted
  | .profileBlock => false
  | .openRegion => m.openPosted

/-! ### Pending sets and 16-bit sequences -/

/-- Add an index to a pending set, kept rising, each at most once (R25, R59). -/
def joinSet (i : Nat) : List Nat → List Nat
  | [] => [i]
  | j :: r => if i < j then i :: j :: r else if i = j then j :: r else j :: joinSet i r

/-- Add several indices. -/
def joinAll (is : List Nat) (set : List Nat) : List Nat := is.foldr joinSet set

/-- A 16-bit sequence number advanced by one, from 65535 to 0. -/
def seqNext (n : Nat) : Nat := (n + 1) % 65536

end Sys2Proof.Machine
end

