-- ==== Sys2Proof/Machine/Operands.lean ====
section
/-! DEFINITION. Fields in words (12_record_and_line_formats.md): the codes of R182, the records of R184 with the checks of
R152 to R155, the Profile Block of R183 with the checks of R175 and the parameters of R27 and R176. -/

namespace Sys2Proof.Machine

/-! ### Fields of words -/

/-- Bits `lo` to `lo + n - 1` of word `i` of a line, as a number. -/
def field (ws : List Word) (i lo n : Nat) : Nat := (ws.getD i 0).toNat / 2 ^ lo % 2 ^ n

/-- A field value at bit `lo`, `n` bits wide. -/
def bitsAt (lo n v : Nat) : Nat := v % 2 ^ n * 2 ^ lo

/-- A word of field values; every bit that no field lists is zero (R186). -/
def word (v : Nat) : Word := BitVec.ofNat 32 v

/-- A flag as a bit: 1 when true (R186). -/
def flag (b : Bool) : Nat := if b then 1 else 0

/-- A word from its two halfwords, halfword 0 first. -/
def halves (lo hi : Nat) : Word := word (bitsAt 0 16 lo + bitsAt 16 16 hi)

/-! ### Codes of R182 and R186 -/

/-- Minute, or not given / unset. -/
def minuteCode (m : Option Nat) : Nat := m.getD 0xFFFF

/-- Lateness: 16-bit two's complement, 0x8000 not given. -/
def latenessCode (l : Option Int) : Nat :=
  match l with
  | none => 0x8000
  | some x => (x % 65536).toNat

def Side.code : Side → Nat
  | .none => 0
  | .left => 1
  | .right => 2
  | .both => 3

def Progress.code : Progress → Nat
  | .noRoute => 0
  | .preJourney => 1
  | .standing => 2
  | .departed => 3
  | .running => 4
  | .approaching => 5
  | .arriving => 6
  | .halted => 7
  | .ended => 8

def PartState.code : PartState → Nat
  | .loading => 0
  | .active => 1
  | .reloading => 2
  | .passive => 3

/-- Entry cause; 0 before the part has entered ACTIVE, when the line that shows it is not composed. -/
def causeCode : Option Cause → Nat
  | none => 0
  | some .start => 1
  | some .reload => 2

def Reason.code : Reason → Nat
  | .order => 1
  | .past => 2
  | .inUse => 3
  | .noStop => 4
  | .noNotice => 5
  | .range => 6
  | .kind => 7
  | .state => 8
  | .fetchFault => 9

def RecKind.code : RecKind → Nat
  | .route => 1
  | .reservation => 2
  | .message => 3

/-- Notice class, or NONE. -/
def classCode : Option NClass → Nat
  | none => 0
  | some .info => 1
  | some .connection => 2
  | some .delay => 3
  | some .urgent => 4
  | some .auto => 5

/-- Stage tag, or NONE. -/
def stageCode : Option Stage → Nat
  | none => 0
  | some .departed => 1
  | some .approaching => 2
  | some .arriving => 3
  | some .standing => 4

def SeatState.code : SeatState → Nat
  | .none => 0
  | .blocked => 1
  | .overlap => 2
  | .occupied => 3
  | .fromNext => 4
  | .freeUntil => 5
  | .free => 6

def Attr.code : Attr → Nat
  | .steady => 0
  | .blink => 1
  | .alternate => 2

/-- Reservation kind, or none. -/
def resKindCode : Option ResKind → Nat
  | none => 0
  | some .standard => 1
  | some .group => 2
  | some .accessible => 3
  | some .blocked => 4

/-- A text reference halfword (R186). -/
def TextRef.code : TextRef → Nat
  | .none => 0
  | .label b => bitsAt 0 8 1 + bitsAt 8 8 b
  | .stop b => bitsAt 0 8 2 + bitsAt 8 8 b

/-- Strip marker of a status; a PASS entry that is AHEAD is TIMING (R24, R186). -/
def markerCode (k : StopKind) (st : Status) : Nat :=
  match st with
  | .ahead => if k = .pass then 8 else 1
  | .target => 2
  | .current => 3
  | .passed => 4
  | .skipped => 5
  | .missed => 6
  | .notServed => 7

/-- LEFT and RIGHT exchanged under REVERSED (R24, R81). -/
def Side.shown (sd : Side) (reversed : Bool) : Side :=
  match sd, reversed with
  | .left, true => .right
  | .right, true => .left
  | x, _ => x

def sideOf (n : Nat) : Option Side :=
  if n = 0 then some .none else if n = 1 then some .left else if n = 2 then some .right
  else if n = 3 then some .both else none

/-! ### Record checks -/

/-- The outcome of checking a value: the value to go on with, or the reason the record is dropped with. -/
abbrev Checked := Except Reason

/-- A numeric field against its upper bound: above it, dropped with RANGE under STRICT, held at it under LENIENT (R152). -/
def atMost (lenient : Bool) (hi v : Nat) : Checked Nat :=
  if v ≤ hi then .ok v else if lenient then .ok hi else .error .range

/-- A numeric field against both bounds (R152). -/
def between (lenient : Bool) (lo hi v : Nat) : Checked Nat :=
  if v < lo then (if lenient then .ok lo else .error .range) else atMost lenient hi v

/-- A set field: outside its set the record is dropped with the reason, under both policies (R152). -/
def need (ok : Bool) (r : Reason) : Checked Unit := if ok then .ok () else .error r

/-- A kind or enumeration by its code: unknown codes are dropped with KIND (R152). -/
def needSome {α : Type} (o : Option α) : Checked α :=
  match o with
  | some a => .ok a
  | none => .error .kind

/-- A minute field with 0xFFFF for not given: 1440 to 65534 is the numeric fault (R153, R155). -/
def minuteField (lenient : Bool) (v : Nat) : Checked (Option Nat) :=
  if v = 0xFFFF then .ok none else (atMost lenient 1439 v).map some

/-- The check of a CALL or PASS route record, field by field in the order of R153. -/
def checkRouteFields (lenient : Bool) (ws : List Word) (kind : StopKind) : Checked Contents := do
  need (field ws 0 0 16 != 0) .range
  let post ← atMost lenient 4000000 (field ws 1 0 32)
  let arr ← minuteField lenient (field ws 2 0 16)
  let dep ← minuteField lenient (field ws 2 16 16)
  let side ← needSome (sideOf (field ws 3 0 8))
  need (field ws 3 8 4 != 0) .range
  need (decide (field ws 0 16 16 ≤ 255)) .range
  return .route
    { kind := kind, code := field ws 0 0 16, post := post, arr := arr, dep := dep, side := side,
      mask := BitVec.ofNat 4 (field ws 3 8 4), textBase := field ws 0 16 16 }

/-- The check of a route record (R153): an EMPTY record is checked for its kind alone. -/
def checkRoute (lenient : Bool) (ws : List Word) : Checked Contents :=
  let k := field ws 7 0 8
  if k = 1 then checkRouteFields lenient ws .call
  else if k = 2 then checkRouteFields lenient ws .pass
  else if k = 3 then .ok .routeEmpty
  else .error .kind

/-- The reserving kind of a reservation record's kind code (R184). -/
def resKindOf (k : Nat) : Option ResKind :=
  if k = 1 then some .standard else if k = 2 then some .group else if k = 3 then some .accessible
  else if k = 4 then some .blocked else none

/-- The check of a reservation record (R43, R154): a VOID record is checked for its kind alone. -/
def checkReservation (seatCount : Nat) (ws : List Word) : Checked Contents :=
  if field ws 7 0 8 = 5 then .ok .void
  else do
    let kind ← needSome (resKindOf (field ws 7 0 8))
    need (decide (field ws 0 0 16 < seatCount)) .range
    need (field ws 1 0 16 != 0) .range
    need (field ws 1 16 16 != 0) .range
    need (field ws 1 0 16 != field ws 1 16 16) .order
    need (decide (field ws 0 16 16 ≤ 255) || field ws 0 16 16 == 0xFFFF) .range
    return .reserve (field ws 0 0 16) (field ws 1 0 16) (field ws 1 16 16) kind
      (if field ws 0 16 16 = 0xFFFF then none else some (field ws 0 16 16))

/-- The class of a NOTICE_ADD: codes 1 to 4 of the shared table, AUTO refused (R155, R184). -/
def noticeClassOf (k : Nat) : Option NClass :=
  if k = 1 then some .info else if k = 2 then some .connection else if k = 3 then some .delay
  else if k = 4 then some .urgent else none

/-- The dwell of a NOTICE_ADD: 0, or 100 to 6000 (R155). -/
def dwellField (lenient : Bool) (v : Nat) : Checked Nat :=
  if v = 0 then .ok 0 else between lenient 100 6000 v

/-- The expiry of a NOTICE_ADD: its kind, then the stop code or the show count that the kind reads (R155, R184). -/
def expiryField (lenient : Bool) (ws : List Word) : Checked Expiry :=
  let k := field ws 2 0 8
  if k = 1 then .ok .untilCancel
  else if k = 2 then (need (field ws 3 0 16 != 0) .range).map fun _ => .untilDepart (field ws 3 0 16)
  else if k = 3 then (between lenient 1 15 (field ws 2 16 8)).map .showCount
  else .error .kind

/-- The arguments of a NOTICE_ADD, in the order of R155. -/
def checkNotice (lenient : Bool) (ws : List Word) : Checked Message := do
  need (field ws 0 0 8 != 255) .noNotice
  let cls ← needSome (noticeClassOf (field ws 0 8 8))
  let priority ← atMost lenient 3 (field ws 0 16 8)
  need (decide (field ws 1 0 16 ≤ 255)) .range
  let dwell ← dwellField lenient (field ws 1 16 16)
  let expiry ← expiryField lenient ws
  return .noticeAdd
    { id := field ws 0 0 8, cls := cls, priority := priority, text := field ws 1 0 16, dwell := dwell,
      expiry := expiry, chime := field ws 2 8 1 == 1 }

/-- A stop code argument: 0 is outside its set (R155). -/
def stopArg (ws : List Word) (m : Nat → Message) : Checked Message :=
  (need (field ws 0 0 16 != 0) .range).map fun _ => m (field ws 0 0 16)

/-- The check of a message: its kind, then its arguments (R155, R184). -/
def checkMessage (lenient : Bool) (ws : List Word) : Checked Message :=
  let k := field ws 7 0 8
  if k = 1 then (atMost lenient 4000000 (field ws 0 0 32)).map .positionFix
  else if k = 2 then stopArg ws .stopCalled
  else if k = 3 then stopArg ws .stopSkipped
  else if k = 4 then stopArg ws .stopRestored
  else if k = 5 then .ok .depart
  else if k = 6 then (atMost lenient 999 (field ws 0 0 16)).map .delay
  else if k = 7 then (minuteField lenient (field ws 0 0 16)).map .clock
  else if k = 8 then (need (decide (field ws 0 0 8 ≤ 3)) .range).map fun _ => .portionSet (field ws 0 0 8)
  else if k = 9 then
    (need (decide (field ws 0 0 8 ≤ 1)) .kind).map fun _ => .orientation (field ws 0 0 8 == 1)
  else if k = 10 then checkNotice lenient ws
  else if k = 11 then .ok (.noticeCancel (field ws 0 0 8))
  else if k = 12 then .ok .journeyReset
  else .error .kind

/-- The aperture whose check policy a record kind follows (R152). -/
def Apertures.ofRecKind (m : Apertures) (k : RecKind) : Aperture :=
  match k with
  | .route => m.route
  | .reservation => m.reservation
  | .message => m.message

/-- The check of a fetched record line under the Aperture Map's policy and the seat count (R152). -/
def checkRecord (m : Apertures) (seatCount : Nat) (k : RecKind) (ws : List Word) : Checked Contents :=
  let lenient := (m.ofRecKind k).lenient
  match k with
  | .route => checkRoute lenient ws
  | .reservation => checkReservation seatCount ws
  | .message => (checkMessage lenient ws).map .message

/-! ### The Profile Block -/

/-- A field of the Profile Block: word n of line m is m.n (R183). -/
def profileField (ws : List Word) (line n lo bits : Nat) : Nat := field ws (line * 8 + n) lo bits

/-- A numeric parameter at load: zero takes the default, and a value outside the range the nearer bound (R27, R176). -/
def numParam (lo hi dflt v : Nat) : Nat := if v = 0 then dflt else if v < lo then lo else if hi < v then hi else v

/-- The aperture of place `i` in kind order with its length held at its maximum (R175, R183). -/
def profileAperture (ws : List Word) (i maxLen : Nat) : Aperture :=
  { base := field ws (2 + i) 0 21
    len := min maxLen (field ws (12 + i / 2) (16 * (i % 2)) 16)
    posted := field ws (2 + i) 24 1 == 1
    lenient := field ws (2 + i) 25 1 == 1 }

/-- The ten apertures, lengths held, and the open region's attribute (R175, R183). -/
def profileApertures (ws : List Word) : Apertures :=
  { route := profileAperture ws 0 48
    reservation := profileAperture ws 1 512
    message := profileAperture ws 2 16
    ack := profileAperture ws 3 1
    report := profileAperture ws 4 6
    seatLabel := profileAperture ws 5 128
    routeStrip := profileAperture ws 6 48
    bannerWindow := profileAperture ws 7 8
    routeWindow := profileAperture ws 8 12
    text := profileAperture ws 9 2048
    openPosted := profileField ws 0 1 16 1 == 1 }

/-- Noise width by its code (R183). -/
def noiseOf (c : Nat) : Nat := if c = 0 then 0 else if c = 1 then 1 else if c = 2 then 2 else 4

/-- Stable windows by their code (R183). -/
def stableOf (c : Nat) : Nat := if c = 0 then 4 else if c = 1 then 2 else if c = 2 then 8 else 16

/-- Whether a stage tag is in the chime-stage set: bit 4 of the code says whether a set is given, bit `i` names the tag,
and code zero is the default set (R183). -/
def chimeStage (code i : Nat) (dflt : Bool) : Bool := if code / 16 % 2 = 0 then dflt else code / 2 ^ i % 2 == 1

/-- The parameters of the Profile Block, as held at load (R27, R176, R183). -/
def profileParams (ws : List Word) : Params :=
  let set := profileField ws 2 6 24 5
  { pulseUm := numParam 1000 200000 157080 (profileField ws 2 1 0 24)
    noise := noiseOf (profileField ws 2 5 24 2)
    falling := profileField ws 2 5 26 1 == 1
    minSpeed := numParam 500 5000 1000 (profileField ws 2 2 0 16)
    hysteresis := numParam 100 2000 300 (profileField ws 2 2 16 16)
    stableWindows := stableOf (profileField ws 2 5 28 2)
    approachM := numParam 500 20000 3000 (profileField ws 2 3 0 16)
    approachMin := numParam 1 15 3 (profileField ws 2 5 16 8)
    arriveM := numParam 100 2000 400 (profileField ws 2 3 16 16)
    departM := numParam 100 5000 800 (profileField ws 2 4 0 16)
    passMargin := numParam 500 5000 1500 (profileField ws 2 4 16 16)
    fixTol := numParam 10 1000 200 (profileField ws 2 5 0 16)
    dwell := numParam 100 6000 500 (profileField ws 2 6 0 16)
    chimeLen := numParam 1 255 50 (profileField ws 2 6 16 8)
    chimeDeparted := chimeStage set 0 false
    chimeApproach := chimeStage set 1 true
    chimeArriving := chimeStage set 2 false
    chimeStanding := chimeStage set 3 true
    planeExp := numParam 5 9 7 (profileField ws 2 7 0 4)
    blinkExp := numParam 3 8 5 (profileField ws 2 7 8 4) }

/-- The apertures in kind order. -/
def Apertures.all (m : Apertures) : List Aperture :=
  [m.route, m.reservation, m.message, m.ack, m.report, m.seatLabel, m.routeStrip, m.bannerWindow, m.routeWindow, m.text]

/-- Two apertures share a line. -/
def Aperture.meets (a b : Aperture) : Bool :=
  decide (0 < a.len) && decide (0 < b.len) && decide (a.base < b.base + b.len) && decide (b.base < a.base + a.len)

/-- No aperture of the list shares a line with a later one. -/
def apart : List Aperture → Bool
  | [] => true
  | a :: r => r.all (fun b => !a.meets b) && apart r

/-- The sum of both halfwords of every word (R175). -/
def halfwordSum (ws : List Word) : Nat := (ws.map fun w => w.toNat % 65536 + w.toNat / 65536).sum

/-- The profile check, conditions 1 to 8 of R175, on the 32 words fetched. -/
def profilePasses (base : Nat) (ws : List Word) : Bool :=
  let m := profileApertures ws
  let block : Aperture := { base := base, len := 4 }
  decide (profileField ws 0 0 0 32 = 0x54505A31)
    && decide (profileField ws 0 1 0 8 = 1)
    && decide (halfwordSum ws % 65536 = 0)
    && (m.route.present && m.message.present && m.ack.present && m.report.present)
    && m.all.all (fun a => !a.present || decide (a.base + a.len - 1 ≤ Config.maxLine))
    && apart (block :: m.all)
    && (decide (1 ≤ profileField ws 0 1 8 8) && decide (profileField ws 0 1 8 8 ≤ 128))

/-- The profile that a passing check accepts (R176). -/
def profileOf (ws : List Word) : Profile :=
  { aps := profileApertures ws, seatCount := profileField ws 0 1 8 8, params := profileParams ws }

end Sys2Proof.Machine
end

