-- ==== Sys2Proof/Machine/Flags.lean ====
section
/-! DEFINITION. Event factors, the enable mask, NOTIFY and the counters (10_events_counters_and_report_lines.md), with the
clear on read, the Position read latch and the Arrival line's state. -/

namespace Sys2Proof.Machine

/-- The fourteen event factors, in the order of their numbers (R182). -/
inductive Factor where
  | stage
  | stopReached
  | stopMissed
  | unplannedStop
  | fixJump
  | seatOverlap
  | noticeDropped
  | badRecord
  | intakeRetry
  | postedFault
  | writebackFault
  | lockBroken
  | arrivalOverrun
  | profileRejected
  deriving DecidableEq, Repr

/-- Factor numbers (R182). -/
def Factor.num : Factor → Nat
  | .stage => 0
  | .stopReached => 1
  | .stopMissed => 2
  | .unplannedStop => 3
  | .fixJump => 4
  | .seatOverlap => 5
  | .noticeDropped => 6
  | .badRecord => 7
  | .intakeRetry => 8
  | .postedFault => 9
  | .writebackFault => 10
  | .lockBroken => 11
  | .arrivalOverrun => 12
  | .profileRejected => 13

/-- The fourteen counters (R161). -/
inductive Counter where
  | badRecord
  | intakeRetry
  | postedFault
  | writebackFault
  | lockBroken
  | noticeDropped
  | fixJump
  | stopMissed
  | unplannedStop
  | arrivalOverrun
  | seatOverlap
  | pulseRejected
  | latchTimeout
  | lockIdle
  deriving DecidableEq, Repr

/-- The place of a counter on the Counter line (R161). -/
def Counter.num : Counter → Nat
  | .badRecord => 0
  | .intakeRetry => 1
  | .postedFault => 2
  | .writebackFault => 3
  | .lockBroken => 4
  | .noticeDropped => 5
  | .fixJump => 6
  | .stopMissed => 7
  | .unplannedStop => 8
  | .arrivalOverrun => 9
  | .seatOverlap => 10
  | .pulseRejected => 11
  | .latchTimeout => 12
  | .lockIdle => 13

/-- The bit of a factor in the factor set and in the mask (R185). -/
def Factor.bit (f : Factor) : BitVec 14 := 1#14 <<< f.num

/-- A factor is set. -/
def Report.has (r : Report) (f : Factor) : Bool := r.factors.getLsbD f.num

/-- NOTIFY is asserted exactly when some event factor is both set and enabled (R163). -/
def State.notify (s : State) : Bool := s.report.factors &&& s.report.mask != 0

/-- CHIME is asserted exactly while the chime pulse timer runs (R83). -/
def State.chime (s : State) : Bool := s.notices.chimeTimer.isSome

/-- Set a factor; the Event line becomes pending when that changes the factors (R160, R165). -/
def Report.setFactor (r : Report) (f : Factor) : Report :=
  if r.has f then r else { r with factors := r.factors ||| f.bit, pendEvent := true }

/-- Raise a counter by one unless it stands at 65535; the Counter line becomes pending when it changes (R161, R166). -/
def Report.raise (r : Report) (c : Counter) : Report :=
  if r.counters.getD c.num 0 < 65535 then
    { r with counters := r.counters.set c.num (r.counters.getD c.num 0 + 1), pendCounter := true }
  else r

/-- A cause with a factor and the counter of the same name (R160, R161). -/
def Report.cause2 (r : Report) (f : Factor) (c : Counter) : Report := (r.setFactor f).raise c

/-- Take BAD_RECORD: factor, counter and last-bad-record fields; the Event line becomes pending always (R160, R165). -/
def Report.bad (r : Report) (why : Reason) (k : RecKind) (slot : Nat) : Report :=
  { r.cause2 .badRecord .badRecord with lastBad := some (why, k, slot), pendEvent := true }

/-- Replace the Report Unit by a function of itself. -/
def State.onReport (s : State) (f : Report → Report) : State := s.setReport (f s.report)

/-- Hand a cause with a factor and a counter to the Report Unit. -/
def State.handCause (s : State) (f : Factor) (c : Counter) : State := s.onReport (·.cause2 f c)

/-- Hand BAD_RECORD to the Report Unit. -/
def State.badRecord (s : State) (why : Reason) (k : RecKind) (slot : Nat) : State := s.onReport (·.bad why k slot)

/-- Every factor, counter, line state and flag cleared, every factor enabled: the clearing of R171. The entry cause is
written at entry to ACTIVE and stands. -/
def Report.cleared (r : Report) : Report := { cause := r.cause }

/-! ### Acknowledge writes (R162) -/

/-- The bits of the byte lanes a mask names, in the fourteen factor bits: factors 0 to 7 in lane 0, 8 to 13 in lane 1. -/
def laneBits (l : Lanes) : BitVec 14 :=
  (if l.getLsbD 0 then 0x00FF#14 else 0#14) ||| (if l.getLsbD 1 then 0x3F00#14 else 0#14)

/-- Word 0, the acknowledge set: each factor whose bit is one in a lane the write names is cleared. -/
def ackFactors (factors : BitVec 14) (w : WWord) : BitVec 14 :=
  factors &&& ~~~(w.data.setWidth 14 &&& laneBits w.lanes)

/-- Word 1, the enable mask: the mask bits of the lanes the write names take the values written. -/
def ackMask (mask : BitVec 14) (w : WWord) : BitVec 14 :=
  (mask &&& ~~~(laneBits w.lanes)) ||| (w.data.setWidth 14 &&& laneBits w.lanes)

/-- Take ACK_WRITE with the words 0 and 1 the write included, as one event. -/
def Report.ack (r : Report) (w0 w1 : Option WWord) : Report :=
  let f := match w0 with
    | some w => ackFactors r.factors w
    | none => r.factors
  let m := match w1 with
    | some w => ackMask r.mask w
    | none => r.mask
  if f = r.factors ∧ m = r.mask then r else { r with factors := f, mask := m, pendEvent := true }

/-! ### REPORT_READ and COACH_TRANSFER (R167, R169, R170) -/

/-- Word `w` is among the `count` words from `first`. -/
def includesWord (first count w : Nat) : Bool := decide (first ≤ w) && decide (w < first + count)

/-- Counters from place `i` on, those of the words read lowered by their shown values (R167). -/
def lowerRead (first count : Nat) : Nat → List Nat → List Nat → List Nat
  | _, [], _ => []
  | _, c :: cs, [] => c :: cs
  | i, c :: cs, v :: vs =>
    (if includesWord first count (i / 2) then c - v else c) :: lowerRead first count (i + 1) cs vs

/-- Shown values from place `i` on, those of the words read made 0 (R167). -/
def zeroRead (first count : Nat) : Nat → List Nat → List Nat
  | _, [] => []
  | i, v :: vs => (if includesWord first count (i / 2) then 0 else v) :: zeroRead first count (i + 1) vs

/-- REPORT_READ of the Counter line: the clear on read. A read of word 7 alone clears nothing (R167). -/
def Report.readCounter (r : Report) (first count : Nat) : Report :=
  if first ≤ 6 then
    { r with counters := lowerRead first count 0 r.counters r.shown
             shown := zeroRead first count 0 r.shown
             pendCounter := true }
  else r

/-- REPORT_READ of the Position line: an OFF latch turns ON when the words include word 0 and not word 7 (R169). -/
def Report.readPosition (r : Report) (first count : Nat) : Report :=
  if r.latch = none ∧ includesWord first count 0 ∧ ¬ includesWord first count 7 then
    { r with latch := some { count := 0, started := false } }
  else r

/-- REPORT_READ of the Arrival line: word 7 makes a FRESH state EMPTY, the fields kept (R170). -/
def Report.readArrival (r : Report) (first count : Nat) : Report :=
  if includesWord first count 7 then { r with arrival := { r.arrival with fresh := false } } else r

/-- Take REPORT_READ of a REPORT line with the words requested. The Event, Phase and Banner lines have no effect. -/
def Report.readLine (r : Report) (idx first count : Nat) : Report :=
  if idx = 1 then r.readCounter first count
  else if idx = 2 then r.readPosition first count
  else if idx = 3 then r.readArrival first count
  else r

/-- Take COACH_TRANSFER; `release` says that it was a read of the Position line including word 7 (R169). -/
def Report.coachTransfer (r : Report) (release : Bool) : Report :=
  match r.latch with
  | none => r
  | some l =>
    if release then { r with latch := none }
    else if l.started then
      (if l.count + 1 ≥ 8 then { r with latch := none } else { r with latch := some { l with count := l.count + 1 } })
    else { r with latch := some { l with started := true } }

end Sys2Proof.Machine
end

