-- ==== Sys2Proof/Machine/Journey.lean ====
section
/-! DEFINITION. Reading the Route Table (01_route_and_progress.md) and the figures derived from it, the position and the clock
(02_speed_and_arrival_estimate.md, R34, R37). A boundary is counted as "one more than a slot", so that slot −1 is 0. -/

namespace Sys2Proof.Machine

/-! ### The Route Table -/

/-- The valid entries from a slot on, with their slots, rising. -/
def validFrom : Nat → List (Option StopEntry) → List (Nat × StopEntry)
  | _, [] => []
  | i, none :: r => validFrom (i + 1) r
  | i, some e :: r => (i, e) :: validFrom (i + 1) r

/-- The valid entries with their slots, in slot order. -/
def Route.entries (r : Route) : List (Nat × StopEntry) := validFrom 0 r.table

/-- The entry of a slot. -/
def Route.entry (r : Route) (i : Nat) : Option StopEntry := r.table.getD i none

/-- A CALL entry. -/
def StopEntry.isCall (e : StopEntry) : Bool := decide (e.kind = .call)

/-- A served stop: a CALL entry that is not SKIPPED, MISSED or NOT_SERVED (R2). -/
def StopEntry.served (e : StopEntry) : Bool :=
  e.isCall && decide (e.status ≠ .skipped) && decide (e.status ≠ .missed) && decide (e.status ≠ .notServed)

/-- A portion mask includes a portion (R1). -/
def StopEntry.servesPortion (e : StopEntry) (p : Nat) : Bool := e.mask.getLsbD p

/-- The entry's post in mm. -/
def StopEntry.postMm (e : StopEntry) : Nat := e.post * 1000

/-- The slot of the TARGET entry, if there is one (R2). -/
def Route.target (r : Route) : Option Nat := (r.entries.find? fun p => decide (p.2.status = .target)).map (·.1)

/-- The slot of the CURRENT entry, if there is one (R2). -/
def Route.current (r : Route) : Option Nat := (r.entries.find? fun p => decide (p.2.status = .current)).map (·.1)

/-- The entry of the TARGET. -/
def Route.targetEntry (r : Route) : Option StopEntry := r.target.bind r.entry

/-- The entry of CURRENT. -/
def Route.currentEntry (r : Route) : Option StopEntry := r.current.bind r.entry

/-- A CALL entry that bounds the past: CURRENT, PASSED or MISSED (R2). -/
def StopEntry.isPast (e : StopEntry) : Bool :=
  e.isCall && (decide (e.status = .current) || decide (e.status = .passed) || decide (e.status = .missed))

/-- One more than the highest slot of an entry that satisfies a test, 0 when none does. -/
def lastEnd (p : StopEntry → Bool) (es : List (Nat × StopEntry)) : Nat :=
  es.foldl (fun acc q => if p q.2 then q.1 + 1 else acc) 0

/-- One more than the past line (R2): slot `i` is above the past line exactly when `pastEnd ≤ i`. -/
def Route.pastEnd (r : Route) : Nat := lastEnd StopEntry.isPast r.entries

/-- Whether an entry may be selected as TARGET at a past line: a CALL entry above it that is AHEAD, or that is the TARGET
already (it counts as AHEAD again while it stands above the line) (R7). -/
def selectable (pastEnd : Nat) (q : Nat × StopEntry) : Bool :=
  decide (pastEnd ≤ q.1) && q.2.isCall && (decide (q.2.status = .ahead) || decide (q.2.status = .target))

/-- The slot that a target selection gives (R7). -/
def Route.selection (r : Route) : Option Nat := (r.entries.find? (selectable r.pastEnd)).map (·.1)

/-- Change the status of an entry by slot. -/
def setStatus (f : Nat → StopEntry → Status) : Nat → List (Option StopEntry) → List (Option StopEntry)
  | _, [] => []
  | i, none :: r => none :: setStatus f (i + 1) r
  | i, some e :: r => some { e with status := f i e } :: setStatus f (i + 1) r

/-- Give every valid entry the status a function of its slot and content names. -/
def Route.mapStatus (r : Route) (f : Nat → StopEntry → Status) : Route := { r with table := setStatus f 0 r.table }

/-- Give one slot's entry a status. -/
def Route.mark (r : Route) (slot : Nat) (st : Status) : Route := r.mapStatus fun i e => if i = slot then st else e.status

/-- The table after a selection: the old TARGET AHEAD again if it is still selectable, the new entry TARGET (R7). -/
def Route.select (r : Route) : Route :=
  let pe := r.pastEnd
  let new := r.selection
  r.mapStatus fun i e =>
    if some i = new then .target
    else if e.status = .target ∧ selectable pe (i, e) then .ahead
    else e.status

/-- The moving states (R12, R16): DEPARTED, RUNNING, APPROACHING and ARRIVING. -/
def Progress.moving : Progress → Bool
  | .departed => true
  | .running => true
  | .approaching => true
  | .arriving => true
  | .noRoute => false
  | .preJourney => false
  | .standing => false
  | .halted => false
  | .ended => false

/-- No journey is under way: NO_ROUTE or ENDED. -/
def Progress.blank : Progress → Bool
  | .noRoute => true
  | .ended => true
  | .preJourney => false
  | .standing => false
  | .departed => false
  | .running => false
  | .approaching => false
  | .arriving => false
  | .halted => false

/-- APPROACHING or ARRIVING. -/
def Progress.near : Progress → Bool
  | .approaching => true
  | .arriving => true
  | .noRoute => false
  | .preJourney => false
  | .standing => false
  | .departed => false
  | .running => false
  | .halted => false
  | .ended => false

/-- Place in the order DEPARTED, RUNNING, APPROACHING, ARRIVING (R16); 0 for the others. -/
def Progress.rank : Progress → Nat
  | .departed => 1
  | .running => 2
  | .approaching => 3
  | .arriving => 4
  | .noRoute => 0
  | .preJourney => 0
  | .standing => 0
  | .halted => 0
  | .ended => 0

/-! ### Derived figures -/

/-- The remaining distance in mm while a TARGET exists (R10, R34). -/
def State.remaining (s : State) : Option Nat := s.route.targetEntry.map fun e => e.postMm - s.odo.position

/-- The expected arrival minute (R37). -/
def State.expected (s : State) : Option Nat :=
  if s.odo.est.valid then s.route.clock.map fun c => (c + s.odo.est.value) % 1440 else none

/-- The shorter way round midnight from a planned to an actual minute: −720 to 719 (R37, R170). -/
def latenessOf (actual planned : Nat) : Int := ((actual : Int) - planned + 720) % 1440 - 720

/-- The lateness at the TARGET (R37). -/
def State.lateness (s : State) : Option Int :=
  match s.expected, s.route.targetEntry.bind (·.arr) with
  | some x, some a => some (latenessOf x a)
  | _, _ => none

/-- The moving state that a re-derivation gives (R17). -/
def State.derive (s : State) : Progress :=
  match s.remaining with
  | none => .ended
  | some rem =>
    if rem ≤ s.params.arriveM * 1000 then .arriving
    else if rem ≤ s.params.approachM * 1000
        ∨ (s.odo.est.valid ∧ ¬ s.odo.est.held ∧ s.odo.est.value ≤ s.params.approachMin) then .approaching
    else match s.route.currentEntry with
      | some c => if s.odo.position < c.postMm + s.params.departM * 1000 then .departed else .running
      | none => .running

/-- One more than the reference stop (R52), and `none` in NO_ROUTE and ENDED, where it is not used. -/
def Route.refEnd (r : Route) : Option Nat :=
  if r.progress.blank then none
  else if r.progress = .preJourney then
    some (match r.target with
      | some t => t + 1
      | none => 0)
  else some (match r.current with
    | some c => c + 1
    | none => r.pastEnd)

/-! ### Strip lines -/

/-- The strip line that shows a slot, and the slot that a strip line shows (R24). -/
def stripIndex (reversed : Bool) (slot : Nat) : Nat := if reversed then 47 - slot else slot

/-- The strip lines: 0 to the ROUTE_STRIP length − 1 (R24). -/
def State.allStrip (s : State) : List Nat := List.range s.router.map.routeStrip.len

/-- The lines of some slots join the route-strip pending set, up to the aperture length (R25). -/
def State.joinStrip (s : State) (slots : List Nat) : State :=
  let idx := (slots.map (stripIndex s.route.reversed)).filter fun i => decide (i < s.router.map.routeStrip.len)
  s.setRoute { s.route with stripPending := joinAll idx s.route.stripPending }

/-- What a strip line shows of an entry: a change of any of these makes its line pending (R24, R25). -/
structure StripView where
  kind     : StopKind
  status   : Status
  code     : Nat
  side     : Side
  arr      : Option Nat
  dep      : Option Nat
  textBase : Nat
  deriving DecidableEq, Repr

/-- The strip's view of an entry. -/
def StopEntry.strip (e : StopEntry) : StripView :=
  { kind := e.kind, status := e.status, code := e.code, side := e.side, arr := e.arr, dep := e.dep,
    textBase := e.textBase }

/-- Slots from `i` on whose shown fields differ between two tables. -/
def changedSlots : Nat → List (Option StopEntry) → List (Option StopEntry) → List Nat
  | _, [], _ => []
  | _, _ :: _, [] => []
  | i, a :: as, b :: bs =>
    if a.map StopEntry.strip = b.map StopEntry.strip then changedSlots (i + 1) as bs
    else i :: changedSlots (i + 1) as bs

/-- The lines of every slot changed since an earlier table join the set (R25). Of the times a line shows, those compared are the
table's: a cause that leaves the TARGET where it was and invalidates its estimate (a last-missed stop reverted by
STOP_CALLED) joins the TARGET's line at the next WINDOW_END or CLOCK_CHANGE (DESIGN CHOICE, log 33). -/
def State.joinChanged (s : State) (old : Route) : State := s.joinStrip (changedSlots 0 old.table s.route.table)

/-- The line of the TARGET joins the set when its expected time or lateness differs from what it was last composed with
(R25, R40). -/
def State.joinTargetLine (s : State) : State :=
  match s.route.target with
  | none => s
  | some t =>
    if s.route.stripLast.getD (stripIndex s.route.reversed t) (none, none) = (s.expected, s.lateness) then s
    else s.joinStrip [t]

/-- The lines of the TARGET, the CURRENT entry and every AHEAD CALL entry join the set (R25, CLOCK and DELAY). -/
def State.joinTimes (s : State) : State :=
  s.joinStrip ((s.route.entries.filter fun q =>
    decide (q.2.status = .target) || decide (q.2.status = .current)
      || (q.2.isCall && decide (q.2.status = .ahead))).map (·.1))

end Sys2Proof.Machine
end

