-- ==== Sys2Proof/Machine/NoticeOps.lean ====
section
/-! DEFINITION. The Notice Queue, the rotation, the banner target, the Banner line's fields and the chime
(04_next_stop_notices.md). -/

namespace Sys2Proof.Machine

/-! ### The queue -/

/-- The SHOWN entry (R66). -/
def Notices.shownEntry (n : Notices) : Option Notice := n.queue.find? (·.shown)

/-- The entry with an id. -/
def Notices.byId (n : Notices) (id : Nat) : Option Notice := n.queue.find? fun e => decide (e.id = id)

/-- The AUTO entry's id (R66). -/
def autoId : Nat := 255

/-- A coach computer entry: any but the AUTO entry (R66). -/
def Notice.fromCoach (e : Notice) : Bool := decide (e.cls ≠ .auto)

/-- The queue has room for a new coach computer entry (R67). -/
def Notices.hasRoom (n : Notices) : Bool := decide ((n.queue.filter Notice.fromCoach).length < Config.coachNoticeCap)

/-- The id of the entry that stands before an id in queue order, `none` when it stands first. -/
def idBefore (id : Nat) : Option Nat → List Notice → Option Nat
  | _, [] => none
  | prev, e :: r => if e.id = id then prev else idBefore id (some e.id) r

/-- An entry leaves the queue; a mark that names it passes to the entry before it (R67). -/
def Notices.drop (n : Notices) (id : Nat) : Notices :=
  { n with
    queue := n.queue.filter fun e => decide (e.id ≠ id)
    mark := if n.mark = some id then idBefore id none n.queue else n.mark }

/-- The content of the entry with the new entry's id replaced in its place; its QUEUED or SHOWN state is kept (R70). -/
def Notices.replace (n : Notices) (x : Notice) : Notices :=
  { n with queue := n.queue.map fun e => if e.id = x.id then { x with shown := e.shown } else e }

/-- A new entry at the tail, QUEUED (R69). -/
def Notices.append (n : Notices) (x : Notice) : Notices := { n with queue := n.queue ++ [{ x with shown := false }] }

/-- Every entry QUEUED but the one with an id, which is SHOWN; `none` leaves none SHOWN. -/
def showOnly (id : Option Nat) (q : List Notice) : List Notice := q.map fun e => { e with shown := decide (some e.id = id) }

/-! ### The banner target (R80) -/

/-- The banner window target of the SHOWN entry. -/
def State.bannerTargetNow (s : State) : Option Nat :=
  match s.notices.shownEntry with
  | none => none
  | some e => if e.text < s.router.map.text.len / 8 then some (s.router.map.text.base + e.text * 8) else none

/-- Recompute the banner target; BANNER_TARGET hands it to the Router (R80, R112). -/
def State.recomputeBanner (s : State) : State := s.setWindows { s.windows with bannerTarget := s.bannerTargetNow }

/-- The banner target recomputed and the Banner line made pending. -/
def State.bannerChanged (s : State) : State :=
  s.recomputeBanner.setNotices { s.recomputeBanner.notices with bannerPending := true }

/-! ### Rotation (R76, R77, R78) -/

/-- A CHIME pulse start: absorbed while the timer runs (R83). -/
def Notices.startChime (n : Notices) (len : Nat) : Notices :=
  match n.chimeTimer with
  | none => { n with chimeTimer := some len }
  | some _ => n

/-- A showing start of an entry (R76). The mark becomes the entry shown at every showing start, one after a preemption too (R67,
R76), although R78 says of the preempted entry that the mark names it (DEDUCED, log 36). -/
def State.startShowing (s : State) (e : Notice) : State :=
  let n := s.notices
  let n := { n with queue := showOnly (some e.id) n.queue, mark := some e.id, dwell := e.dwell, seq := seqNext n.seq }
  let n := if e.chime then n.startChime s.params.chimeLen else n
  (s.setNotices n).bannerChanged

/-- The highest priority among the entries. -/
def topPriority (q : List Notice) : Nat := q.foldr (fun e acc => max e.priority acc) 0

/-- The entries after the one with an id. -/
def afterId (id : Nat) : List Notice → List Notice
  | [] => []
  | e :: r => if e.id = id then r else afterId id r

/-- The queue in search order: from the entry after the mark to the tail, then from the head; from the head when the mark
is the front (R77). -/
def Notices.searchOrder (n : Notices) : List Notice :=
  match n.mark with
  | none => n.queue
  | some id => afterId id n.queue ++ n.queue

/-- The entry a selection takes: the first of the highest priority in search order (R77). -/
def Notices.next (n : Notices) : Option Notice :=
  n.searchOrder.find? fun e => decide (e.priority = topPriority n.queue)

/-- Nothing is shown: no entry SHOWN, the dwell countdown stopped, the banner target and line following (R78, R80, R82). -/
def State.showNothing (s : State) : State :=
  (s.setNotices { s.notices with queue := showOnly none s.notices.queue, dwell := 0 }).bannerChanged

/-- A selection (R77). `was` is the id of the entry SHOWN just before, whose showing continues when it is taken again;
`had` says that something was SHOWN, so that the banner follows when nothing is selected. -/
def State.selectNotice (s : State) (was : Option Nat) (had : Bool) : State :=
  match s.notices.next with
  | none => if had then s.showNothing else s
  | some e =>
    if some e.id = was then s.setNotices { s.notices with dwell := e.dwell }
    else s.startShowing e

/-- The rotation check of R78. `had` says that an entry was SHOWN before the change that the check follows. -/
def State.rotationCheck (s : State) (had : Bool) : State :=
  if s.route.progress.blank then (if had then s.showNothing else s)
  else
    match s.notices.shownEntry with
    | none => s.selectNotice none had
    | some e => if e.priority < topPriority s.notices.queue then s.selectNotice (some e.id) true else s

/-- Something is SHOWN. -/
def State.showing (s : State) : Bool := s.notices.shownEntry.isSome

/-- The removal of an entry with the check that follows (R71, R78). -/
def State.removeNotice (s : State) (id : Nat) : State :=
  (s.setNotices (s.notices.drop id)).rotationCheck s.showing

/-- The replacement of an entry's content, in its place: a SHOWN one has its showing restarted, then the check (R70). -/
def State.replaceNotice (s : State) (x : Notice) : State :=
  let s' := s.setNotices (s.notices.replace x)
  let s'' := match s'.notices.shownEntry with
    | some e => if e.id = x.id then s'.startShowing e else s'
    | none => s'
  s''.rotationCheck s.showing

/-- A new entry at the tail and the check that follows (R69). -/
def State.appendNotice (s : State) (x : Notice) : State :=
  (s.setNotices (s.notices.append x)).rotationCheck s.showing

/-- The removals of R72: every coach computer entry UNTIL_DEPART with a code, one after another in queue order
(DEDUCED, log 26). -/
def State.removeAllNotices (s : State) (ids : List Nat) : State := ids.foldl State.removeNotice s

/-- The ids that leave at a departure from a code (R72) (DEDUCED, log 26). -/
def Notices.leaving (n : Notices) (code : Nat) : List Nat :=
  (n.queue.filter fun e => e.fromCoach && decide (e.expiry = .untilDepart code)).map (·.id)

/-! ### The AUTO entry (R73, R74, R75) -/

/-- Whether a stage tag is in the chime-stage set (R73). -/
def Params.chimes (p : Params) : Stage → Bool
  | .departed => p.chimeDeparted
  | .approaching => p.chimeApproach
  | .arriving => p.chimeArriving
  | .standing => p.chimeStanding

/-- The text block offset of a stage tag (R73). -/
def Stage.offset : Stage → Nat
  | .departed => 0
  | .approaching => 1
  | .arriving => 2
  | .standing => 3

/-- The AUTO text block: the subject's text base plus the stage's offset, held at 255 (R1, R73). -/
def State.autoText (s : State) (st : Stage) (slot : Nat) : Nat :=
  min 255 (((s.route.entry slot).map (·.textBase)).getD 0 + st.offset)

/-- The AUTO entry of a stage tag and a subject (R73). -/
def State.autoEntry (s : State) (st : Stage) (slot : Nat) : Notice :=
  { id := autoId, cls := .auto, priority := 2, text := s.autoText st slot, dwell := s.params.dwell,
    expiry := .untilCancel, chime := s.params.chimes st, shown := false, auto := some (st, slot) }

/-- The AUTO content for a progress state: nothing to do, a stage with its subject, or a removal (R74). -/
inductive AutoWant where
  | keep
  | want (st : Stage) (slot : Nat)
  | remove
  deriving DecidableEq, Repr

/-- A stage whose subject is a slot, left as it is when there is no such slot. -/
def wantStage (st : Stage) (slot : Option Nat) : AutoWant :=
  match slot with
  | some i => .want st i
  | none => .keep

/-- The table of R74, with the subject taken from the slots that STAGE_CHANGE carries. -/
def autoWant (p : Progress) (current target : Option Nat) : AutoWant :=
  match p with
  | .departed => wantStage .departed target
  | .running => wantStage .departed target
  | .approaching => wantStage .approaching target
  | .arriving => wantStage .arriving target
  | .standing => wantStage .standing current
  | .halted => .keep
  | .preJourney => .keep
  | .noRoute => .remove
  | .ended => .remove

/-- The AUTO entry updated on STAGE_CHANGE, then the rotation check (R74, R78). -/
def State.updateAuto (s : State) : State :=
  match autoWant s.route.progress s.route.current s.route.target, s.notices.byId autoId with
  | .keep, _ => s.rotationCheck s.showing
  | .remove, none => s.rotationCheck s.showing
  | .remove, some _ => s.removeNotice autoId
  | .want st slot, none => s.appendNotice (s.autoEntry st slot)
  | .want st slot, some e =>
    if e.auto = some (st, slot) then s.rotationCheck s.showing else s.replaceNotice (s.autoEntry st slot)

/-- The refresh of the AUTO entry on TARGET_CHANGE: the new TARGET as subject in a moving stage, no new showing (R75). -/
def State.refreshAuto (s : State) : State :=
  match s.notices.byId autoId, s.route.target with
  | some e, some t =>
    match e.auto with
    | some (.standing, _) => s
    | none => s
    | some (st, _) =>
      let x := { e with auto := some (st, t), text := s.autoText st t }
      let s' := s.setNotices (s.notices.replace x)
      (if e.shown then s'.bannerChanged else s').rotationCheck s.showing
  | _, _ => s

/-! ### The Banner line's fields (R81) -/

/-- The banner stop: the AUTO entry's subject, or the TARGET for a coach computer entry. -/
def State.bannerStop (s : State) : Option Nat :=
  match s.notices.shownEntry with
  | none => none
  | some e =>
    match e.auto with
    | some (_, slot) => some slot
    | none => s.route.target

/-- The stop part of the Banner line. -/
def State.bannerStopEntry (s : State) : Option StopEntry := s.bannerStop.bind s.route.entry

/-- The fields of the Banner line as they stand (R81). -/
def State.bannerFields (s : State) : BannerFields :=
  let atTarget := s.bannerStop.isSome && decide (s.bannerStop = s.route.target)
  { cls := s.notices.shownEntry.map (·.cls)
    stage := s.notices.shownEntry.bind fun e => e.auto.map (·.1)
    id := (s.notices.shownEntry.map (·.id)).getD 0
    text := (s.notices.shownEntry.map (·.text)).getD 0
    stop := (s.bannerStopEntry.map (·.code)).getD 0
    textBase := (s.bannerStopEntry.map (·.textBase)).getD 0
    side := match s.bannerStopEntry with
      | some e => e.side.shown s.route.reversed
      | none => .none
    est := if atTarget then s.odo.est else {}
    expected := if atTarget then s.expected else none
    lateness := if atTarget then s.lateness else none
    seq := s.notices.seq }

/-- The Banner line becomes pending when a field differs from the line last composed (R82). -/
def State.compareBanner (s : State) : State :=
  if s.bannerFields = s.notices.last then s else s.setNotices { s.notices with bannerPending := true }

end Sys2Proof.Machine
end

