-- ==== Sys2Proof/Machine/SeatOps.lean ====
section
/-! DEFINITION. Binding, ordering, mapping and resolving reservations (03_seat_reservations.md). -/

namespace Sys2Proof.Machine

/-! ### Binding (R44) -/

/-- The valid CALL entries with a code, in slot order. -/
def Route.callsWith (r : Route) (code : Nat) : List (Nat × StopEntry) :=
  r.entries.filter fun q => q.2.isCall && decide (q.2.code = code)

/-- A code bound in the order of R3: the lowest CALL slot above the past line, else the highest at or below it. -/
def Route.bindCode (r : Route) (code : Nat) : Option Nat :=
  match (r.callsWith code).find? fun q => decide (r.pastEnd ≤ q.1) with
  | some q => some q.1
  | none => (r.callsWith code).getLast?.map (·.1)

/-- The to-slot of a reservation whose from stop is bound: the lowest CALL slot above it with the code (R44). -/
def Route.bindAfter (r : Route) (code from_ : Nat) : Option Nat :=
  ((r.callsWith code).find? fun q => decide (from_ < q.1)).map (·.1)

/-- A reservation bound afresh against the table (R44). -/
def Reservation.bind (r : Route) (x : Reservation) : Reservation :=
  let f := r.bindCode x.fromCode
  { x with
    boundFrom := f
    boundTo := match f with
      | some i => r.bindAfter x.toCode i
      | none => r.bindCode x.toCode }

/-- The ORDER refusal of R45: both stops are in the route and the to stop is not after the bound from-slot. -/
def Reservation.outOfOrder (r : Route) (x : Reservation) : Bool :=
  match r.bindCode x.fromCode with
  | some i => !(r.callsWith x.toCode).isEmpty && (r.bindAfter x.toCode i).isNone
  | none => false

/-! ### The Pool and the seat lists (R42, R46) -/

/-- The reservation of a slot; `none` when EMPTY. -/
def Seats.slot (x : Seats) (n : Nat) : Option Reservation := (x.pool.find? fun q => decide (q.1 = n)).map (·.2)

/-- The Pool with a slot EMPTY. -/
def dropSlot (n : Nat) (pool : List (Nat × Reservation)) : List (Nat × Reservation) :=
  pool.filter fun q => decide (q.1 ≠ n)

/-- The Pool with a slot ACTIVE, slots rising. -/
def putSlot (n : Nat) (x : Reservation) : List (Nat × Reservation) → List (Nat × Reservation)
  | [] => [(n, x)]
  | (m, y) :: r => if n < m then (n, x) :: (m, y) :: r else if n = m then (n, x) :: r else (m, y) :: putSlot n x r

/-- Order of an optional slot, an unbound one after every slot. -/
def slotBefore (a b : Option Nat) : Bool :=
  match a, b with
  | some x, some y => decide (x < y)
  | some _, none => true
  | none, _ => false

/-- List order of R46: bound ones by from-slot, to-slot and reservation slot; dormant ones last, by reservation slot. -/
def listBefore (a b : Nat × Reservation) : Bool :=
  match a.2.boundFrom, b.2.boundFrom with
  | none, none => decide (a.1 < b.1)
  | some x, some y =>
    decide (x < y) || (x == y && (slotBefore a.2.boundTo b.2.boundTo
      || (a.2.boundTo == b.2.boundTo && decide (a.1 < b.1))))
  | some _, none => true
  | none, some _ => false

/-- Insert into an ordered list. -/
def listInsert (a : Nat × Reservation) : List (Nat × Reservation) → List (Nat × Reservation)
  | [] => [a]
  | b :: r => if listBefore a b then a :: b :: r else b :: listInsert a r

/-- A seat's list: its ACTIVE reservations with their slots, in the order of R46. -/
def Seats.list (x : Seats) (seat : Nat) : List (Nat × Reservation) :=
  (x.pool.filter fun q => decide (q.2.seat = seat)).foldr listInsert []

/-! ### Mapping to the effective route (R50, R51) -/

/-- The slot's entry is a served stop. -/
def Route.servedAt (r : Route) (i : Nat) : Bool := (r.entry i).any StopEntry.served

/-- The lowest served stop above a slot. -/
def Route.servedAfter (r : Route) (i : Nat) : Option Nat :=
  (r.entries.find? fun q => decide (i < q.1) && q.2.served).map (·.1)

/-- The final served calling stop. -/
def Route.finalServed (r : Route) : Option Nat := (r.entries.filter fun q => q.2.served).getLast?.map (·.1)

/-- The mapped from-slot (R50). -/
def Reservation.mappedFrom (r : Route) (x : Reservation) : Option Nat :=
  match x.boundFrom with
  | none => none
  | some i => if r.servedAt i then some i else r.servedAfter i

/-- The mapped to-slot (R51). -/
def Reservation.mappedTo (r : Route) (x : Reservation) : Option Nat :=
  match x.boundTo with
  | none => r.finalServed
  | some i => if r.servedAt i then some i else r.finalServed

/-- An active reservation with its mapped interval. -/
structure Leg where
  slot : Nat
  res  : Reservation
  lo   : Nat
  hi   : Nat
  deriving DecidableEq, Repr

/-- The mapped interval of an active reservation: the mapped from-slot is below the mapped to-slot (R51). -/
def legOf (r : Route) (q : Nat × Reservation) : Option Leg :=
  match q.2.mappedFrom r, q.2.mappedTo r with
  | some f, some t => if f < t then some { slot := q.1, res := q.2, lo := f, hi := t } else none
  | _, _ => none

/-- The active reservations of a seat with their intervals, in list order. -/
def legs (r : Route) (x : Seats) (seat : Nat) : List Leg := (x.list seat).filterMap (legOf r)

/-- BLOCKED withdraws the seat; the other kinds reserve it. -/
def Leg.blocked (l : Leg) : Bool := decide (l.res.kind = .blocked)

/-- The leg covers the current leg of the journey: from ≤ r < to (R52). -/
def Leg.covers (l : Leg) (refEnd : Nat) : Bool := decide (l.lo < refEnd) && decide (refEnd ≤ l.hi)

/-- Two legs of different reservations, neither BLOCKED, that intersect and both end after the reference stop (R53). -/
def Leg.clashes (refEnd : Nat) (a b : Leg) : Bool :=
  decide (a.slot ≠ b.slot) && !a.blocked && !b.blocked && decide (a.lo < b.hi) && decide (b.lo < a.hi)
    && decide (refEnd ≤ a.hi) && decide (refEnd ≤ b.hi)

/-! ### Seat states (R53, R54) -/

/-- The stop code of a slot's entry. -/
def Route.codeAt (r : Route) (i : Nat) : Nat := ((r.entry i).map (·.code)).getD 0

/-- The text base of a slot's entry, as a text reference. -/
def Route.textAt (r : Route) (i : Nat) : TextRef :=
  match r.entry i with
  | some e => .stop e.textBase
  | none => .none

/-- The label text of a reservation, or none. -/
def Reservation.primary (x : Reservation) : TextRef :=
  match x.text with
  | some b => .label b
  | none => .none

/-- The leg of the lowest mapped from-slot above a slot, the first of them in list order (R54, FREE_UNTIL). -/
def lowestAbove (t : Nat) : List Leg → Option Leg
  | [] => none
  | l :: r =>
    match lowestAbove t r with
    | none => if t < l.lo then some l else none
    | some m => if t < l.lo ∧ l.lo ≤ m.lo then some l else some m

/-- FROM_NEXT and FREE_UNTIL, which look ahead to the TARGET, and FREE (R53, orders 5 to 7). -/
def resolveAhead (r : Route) (ls : List Leg) : SeatContent :=
  match r.target with
  | none => { state := .free }
  | some t =>
    match ls.find? fun l => decide (l.lo = t) with
    | some l =>
      { state := .fromNext, attr := if r.progress.near then .blink else .steady, kind := some l.res.kind,
        primary := l.res.primary, alternate := r.textAt t, stop := r.codeAt t }
    | none =>
      match lowestAbove t ls with
      | some l =>
        { state := .freeUntil, attr := .alternate, kind := some l.res.kind, primary := .none,
          alternate := r.textAt l.lo, stop := r.codeAt l.lo }
      | none => { state := .free }

/-- The seat state and its label content, at a reference stop (R53, R54, orders 2 to 7). -/
def resolveLegs (r : Route) (refEnd : Nat) (ls : List Leg) : SeatContent :=
  match ls.find? fun l => l.blocked && l.covers refEnd with
  | some l =>
    { state := .blocked, attr := .steady, kind := some l.res.kind, primary := l.res.primary, stop := r.codeAt l.hi }
  | none =>
    match ls.find? fun l => ls.any (l.clashes refEnd) with
    | some l =>
      { state := .overlap, attr := .blink, kind := some l.res.kind, primary := l.res.primary, stop := r.codeAt l.lo }
    | none =>
      match ls.find? fun l => !l.blocked && l.covers refEnd with
      | some l =>
        { state := .occupied, attr := .alternate, kind := some l.res.kind, primary := l.res.primary,
          alternate := r.textAt l.hi, stop := r.codeAt l.hi }
      | none => resolveAhead r ls

/-- The content of a seat's label as it stands (R53, R54): NONE in NO_ROUTE and ENDED. -/
def resolveSeat (r : Route) (x : Seats) (seat : Nat) : SeatContent :=
  match r.refEnd with
  | none => {}
  | some e => resolveLegs r e (legs r x seat)

/-! ### The pending set, full resolution, expiry -/

/-- How many seats are composed seats: below both the seat count and the SEAT_LABEL length (R57). -/
def State.composedSeats (s : State) : Nat := min s.loader.profile.seatCount s.router.map.seatLabel.len

/-- A full resolution makes every composed seat pending, from seat 0 (R61, R62). -/
def State.fullResolution (s : State) : State :=
  s.setSeats { s.seats with pending := List.range s.composedSeats }

/-- A seat joins the pending set when it is a composed seat (R48, R59). -/
def State.joinSeat (s : State) (seat : Nat) : State :=
  if seat < s.composedSeats then s.setSeats { s.seats with pending := joinSet seat s.seats.pending } else s

/-- Expiry of every reservation whose mapped to-slot is below a boundary (R55, R56). -/
def State.expireBelow (s : State) (bound : Nat) : State :=
  s.setSeats { s.seats with
    pool := s.seats.pool.filter fun q =>
      match q.2.mappedTo s.route with
      | some t => decide (bound ≤ t)
      | none => true }

/-- Every ACTIVE reservation bound afresh (R49). -/
def State.rebindAll (s : State) : State :=
  s.setSeats { s.seats with pool := s.seats.pool.map fun q => (q.1, q.2.bind s.route) }

/-- The reference stop that the SEAT_OVERLAP test uses, as one more than a slot: R52's where it gives one; a free value
(log 6) in NO_ROUTE and ENDED. -/
def State.overlapRef (s : State) : Nat :=
  match s.route.refEnd with
  | some e => e
  | none => Config.freeReference s.free

/-- The reservation of a slot forms an intersecting pair with another of its seat (R47). -/
def State.overlaps (s : State) (slot seat : Nat) : Bool :=
  let ls := legs s.route s.seats seat
  ls.any fun a => decide (a.slot = slot) && ls.any (a.clashes s.overlapRef)

end Sys2Proof.Machine
end

