-- ==== Sys2Proof/Machine/StoreOps.lean ====
section
/-! DEFINITION. The Line Store: held lines, offers, overlay, the taking in of writes (05_the_line_store_and_frame_composition.md),
and the composition of every line the part owns (R24, R57, R81, R118, R165 to R170, R186). -/

namespace Sys2Proof.Machine

/-! ### Held lines -/

/-- The entry of a line. -/
def heldEntry (st : List Entry) (line : Nat) : Option Entry := st.find? fun e => decide (e.line = line)

/-- How many words the mask covers (R87). -/
def Entry.width (e : Entry) : Nat := if e.whole then 8 else 4

/-- The newest data: the successor when there is one, otherwise the data (R86). -/
def Entry.newest (e : Entry) : List Word := e.succ.getD e.data

/-- The store can take an offer for a line: it is held, or there is room for a new entry (R89, R93). -/
def canTake (st : List Entry) (line : Nat) : Bool :=
  (heldEntry st line).isSome || decide (st.length < Config.storeCap)

/-- An offer taken into the line's entry: in place when DIRTY (R90), as the successor when WRITING (R91). -/
def Entry.take (e : Entry) (ws : List Word) : Entry :=
  if e.writing then { e with succ := some ws } else { e with data := ws }

/-- An offer taken: into the line's entry, or as a new DIRTY entry at the youngest place (R89 to R92). -/
def takeOffer (st : List Entry) (line : Nat) (whole : Bool) (ws : List Word) : List Entry :=
  if (heldEntry st line).isSome then st.map fun e => if e.line = line then e.take ws else e
  else st ++ [{ line := line, whole := whole, data := ws, writing := false, succ := none }]

/-- The store's requests are urgent (R98). -/
def urgent (st : List Entry) : Bool := decide (Config.urgentAt ≤ st.length)

/-- The oldest DIRTY entry (R92). -/
def oldestDirty (st : List Entry) : Option Entry := st.find? fun e => !e.writing

/-! ### Overlay of reads (R99 to R101) -/

/-- Word `w` is covered by an entry. -/
def Entry.covers (e : Entry) (w : Nat) : Bool := decide (w < e.width)

/-- Every one of `n` words from `first` is covered. -/
def Entry.coversAll (e : Entry) (first n : Nat) : Bool := decide (first + n ≤ e.width)

/-- The data of a read with covered words replaced by the entry's newest data. -/
def Entry.overlay (e : Entry) : Nat → List Word → List Word
  | _, [] => []
  | i, w :: ws => (if e.covers i then e.newest.getD i 0 else w) :: Entry.overlay e (i + 1) ws

/-- The newest data of `n` words from `first`. -/
def Entry.read (e : Entry) (first n : Nat) : List Word := e.overlay first (List.replicate n 0)

/-! ### Coach computer writes to held words (R102 to R104) -/

/-- One byte lane of a merge. -/
def mergeLane (old new : Word) (l : Lanes) (n : Nat) : Byte := if l.getLsbD n then laneByte new n else laneByte old n

/-- A written word merged by byte lane (R102). -/
def mergeWord (old : Word) (ww : WWord) : Word :=
  ((mergeLane old ww.data ww.lanes 3 ++ mergeLane old ww.data ww.lanes 2 : BitVec 16)
    ++ (mergeLane old ww.data ww.lanes 1 ++ mergeLane old ww.data ww.lanes 0 : BitVec 16) : BitVec 32)

/-- The held words of a write merged into data, from word `i` on: word `i` of the data takes the write's word for it when
the write has one. -/
def mergeWords (first : Nat) (ws : List WWord) : Nat → List Word → List Word
  | _, [] => []
  | i, d :: ds =>
    (match if first ≤ i then ws[i - first]? else none with
      | some ww => mergeWord d ww
      | none => d) :: mergeWords first ws (i + 1) ds

/-- A write merged into an entry's newest data; a WRITING entry gets a successor first when it has none (R102, R103). -/
def Entry.merge (e : Entry) (first : Nat) (ws : List WWord) : Entry :=
  if e.writing then { e with succ := some (mergeWords first ws 0 e.newest) }
  else { e with data := mergeWords first ws 0 e.data }

/-- A write merged into the entry of its line. -/
def mergeStore (st : List Entry) (line first : Nat) (ws : List WWord) : List Entry :=
  st.map fun e => if e.line = line then e.merge first ws else e

/-! ### Write-back (R95 to R97) -/

/-- The grant of a write-back: the oldest DIRTY entry becomes WRITING (R95). -/
def grantWriteback : List Entry → List Entry
  | [] => []
  | e :: r => if e.writing then e :: grantWriteback r else { e with writing := true } :: r

/-- A write-back completed with DONE: the WRITING entry leaves, or with a successor becomes DIRTY with it as data at the
youngest place (R95, R96). -/
def completeDone (st : List Entry) : List Entry :=
  st.filter (fun e => !e.writing)
    ++ (st.filter fun e => e.writing).filterMap fun e =>
      e.succ.map fun d => { e with data := d, writing := false, succ := none }

/-- A write-back completed with FAULT: the WRITING entry leaves with its successor (R97). -/
def completeFault (st : List Entry) : List Entry := st.filter fun e => !e.writing

/-! ### The words of the composed lines (R186) -/

/-- Estimate word: E, valid, held. An invalid estimate is composed as 0 with both flags 0. -/
def Estimate.bits (e : Estimate) : Nat :=
  if e.valid then bitsAt 0 8 e.value + bitsAt 8 1 1 + bitsAt 9 1 (flag e.held) else 0

/-- The sequence word of a line: bits 0 to 15 (R186). -/
def seqWord (seq : Nat) : Word := word (bitsAt 0 16 seq)

/-- Words of the Event line. -/
def eventWords (s : State) (seq : Nat) : List Word :=
  let r := s.report
  let bad := match r.lastBad with
    | some (why, k, slot) => bitsAt 0 8 why.code + bitsAt 8 8 k.code + bitsAt 16 16 slot
    | none => 0
  [word r.factors.toNat, word r.mask.toNat, word bad,
    word (bitsAt 0 8 s.loader.part.code + bitsAt 8 8 (causeCode r.cause)), 0, 0, 0, seqWord seq]

/-- Words of the Counter line: two counters to a word, then the sequence. -/
def counterWords (cs : List Nat) (seq : Nat) : List Word :=
  let c := fun i => cs.getD i 0
  [halves (c 0) (c 1), halves (c 2) (c 3), halves (c 4) (c 5), halves (c 6) (c 7), halves (c 8) (c 9),
    halves (c 10) (c 11), halves (c 12) (c 13), seqWord seq]

/-- The fields of the Position line as they stand (R168). -/
def State.positionFields (s : State) : PositionFields :=
  { posM := s.report.posM
    repSpeed := s.report.repSpeed
    settled := s.report.settled
    est := s.odo.est
    progress := s.route.progress
    current := (s.route.currentEntry.map (·.code)).getD 0
    target := (s.route.targetEntry.map (·.code)).getD 0
    remaining := s.remaining.map (· / 1000)
    clock := s.route.clock
    delay := s.route.delay
    expected := s.expected }

/-- Words of the Position line. -/
def positionWords (f : PositionFields) (seq : Nat) : List Word :=
  [word f.posM,
    word (bitsAt 0 16 f.repSpeed + bitsAt 16 1 (flag f.settled) + bitsAt 24 8 f.progress.code),
    word (f.est.bits + bitsAt 16 16 (minuteCode f.clock)),
    halves f.current f.target,
    word (f.remaining.getD 0xFFFFFFFF),
    halves f.delay (minuteCode f.expected), 0, seqWord seq]

/-- Words of the Arrival line. -/
def arrivalWords (a : Arrival) (seq : Nat) : List Word :=
  [halves a.stop 0, halves (minuteCode a.clock) (latenessCode a.lateness), word a.posM, 0, 0, 0, 0, seqWord seq]

/-- Words of the Phase line (R118). -/
def phaseWords (p : Phase) (k j : Nat) : List Word :=
  [word (flag p.plane + 2 * flag p.blink + 4 * flag p.blankAll), word (bitsAt 0 8 k + bitsAt 8 8 j), 0, 0, 0, 0, 0,
    seqWord p.seq]

/-- Words of the Banner line (R81). -/
def bannerWords (f : BannerFields) : List Word :=
  [word (bitsAt 0 8 (classCode f.cls) + bitsAt 8 8 (stageCode f.stage) + bitsAt 16 8 f.id + bitsAt 24 8 f.side.code),
    halves f.text f.textBase, halves f.stop 0, word f.est.bits,
    halves (minuteCode f.expected) (latenessCode f.lateness), 0, 0, seqWord f.seq]

/-- Expected time and lateness of a slot on the strip (R24): the TARGET's from the estimate, an AHEAD CALL entry's and the
CURRENT entry's from the planned times and the announced delay. -/
def State.stripTimes (s : State) (e : StopEntry) : Option Nat × Option Int :=
  match e.status with
  | .target => (s.expected, s.lateness)
  | .ahead => (if e.kind = .call then e.arr.map fun m => (m + s.route.delay) % 1440 else none, none)
  | .current => (e.dep.map fun m => (m + s.route.delay) % 1440, none)
  | .passed => (none, none)
  | .skipped => (none, none)
  | .missed => (none, none)
  | .notServed => (none, none)

/-- Words 0 to 3 of a strip line, from the slot it shows (R24). -/
def State.stripWords (s : State) (i seq : Nat) : List Word :=
  match s.route.entry (stripIndex s.route.reversed i) with
  | none => [0, 0, halves (minuteCode none) 0, halves (latenessCode none) seq]
  | some e =>
    [word (bitsAt 0 8 (markerCode e.kind e.status) + bitsAt 8 8 (e.side.shown s.route.reversed).code),
      halves e.code e.textBase, halves (minuteCode (s.stripTimes e).1) 0, halves (latenessCode (s.stripTimes e).2) seq]

/-- What a strip line carries of time and lateness. -/
def State.stripTimesAt (s : State) (i : Nat) : Option Nat × Option Int :=
  match s.route.entry (stripIndex s.route.reversed i) with
  | none => (none, none)
  | some e => s.stripTimes e

/-- Words 0 to 3 of a seat label line (R57, R186). -/
def seatWords (c : SeatContent) (seq : Nat) : List Word :=
  [word (bitsAt 0 8 c.state.code + bitsAt 8 8 c.attr.code + bitsAt 16 8 (resKindCode c.kind)),
    halves c.primary.code 0, halves c.alternate.code 0, halves c.stop seq]

/-! ### Offers (R88 to R93): each composer's, at the moment the store takes it -/

/-- A REPORT line's number, when its index is below the REPORT length (R87). -/
def State.reportLine (s : State) (idx : Nat) : Option Nat :=
  if idx < s.router.map.report.len then some (s.router.map.report.base + idx) else none

/-- The store with an offer for a whole line taken. -/
def State.takeWhole (s : State) (line : Nat) (ws : List Word) : State := s.setStore (takeOffer s.store line true ws)

/-- The Phase Generator's offer (R118). -/
def State.offerPhase (s : State) : State :=
  if s.phase.pending then
    match s.reportLine 4 with
    | none => s.setPhase { s.phase with pending := false }
    | some l =>
      if canTake s.store l then
        (s.takeWhole l (phaseWords s.phase s.params.planeExp s.params.blinkExp)).setPhase { s.phase with pending := false }
      else s
  else s

/-- The Event line's offer (R164, R165). -/
def State.offerEvent (s : State) : State :=
  if s.report.pendEvent then
    match s.reportLine 0 with
    | none => s.onReport fun r => { r with pendEvent := false }
    | some l =>
      if canTake s.store l then
        (s.takeWhole l (eventWords s (seqNext s.report.seqEvent))).onReport fun r =>
          { r with pendEvent := false, seqEvent := seqNext r.seqEvent }
      else s
  else s

/-- The Counter line's offer; the values composed become the shown values (R166). -/
def State.offerCounter (s : State) : State :=
  if s.report.pendCounter then
    match s.reportLine 1 with
    | none => s.onReport fun r => { r with pendCounter := false }
    | some l =>
      if canTake s.store l then
        (s.takeWhole l (counterWords s.report.counters (seqNext s.report.seqCounter))).onReport fun r =>
          { r with pendCounter := false, seqCounter := seqNext r.seqCounter, shown := r.counters }
      else s
  else s

/-- The Position line's offer; none while the Position read latch is ON (R168, R169). -/
def State.offerPosition (s : State) : State :=
  if s.report.pendPosition then
    match s.reportLine 2 with
    | none => s.onReport fun r => { r with pendPosition := false }
    | some l =>
      if s.report.latch.isNone && canTake s.store l then
        (s.takeWhole l (positionWords s.positionFields (seqNext s.report.seqPosition))).onReport fun r =>
          { r with pendPosition := false, seqPosition := seqNext r.seqPosition, posLast := s.positionFields }
      else s
  else s

/-- The Arrival line's offer (R164, R170). -/
def State.offerArrival (s : State) : State :=
  if s.report.pendArrival then
    match s.reportLine 3 with
    | none => s.onReport fun r => { r with pendArrival := false }
    | some l =>
      if canTake s.store l then
        (s.takeWhole l (arrivalWords s.report.arrival (seqNext s.report.seqArrival))).onReport fun r =>
          { r with pendArrival := false, seqArrival := seqNext r.seqArrival }
      else s
  else s

/-- The Banner line's offer (R82). -/
def State.offerBanner (s : State) : State :=
  if s.notices.bannerPending then
    match s.reportLine 5 with
    | none => s.setNotices { s.notices with bannerPending := false }
    | some l =>
      if canTake s.store l then
        (s.takeWhole l (bannerWords s.bannerFields)).setNotices
          { s.notices with bannerPending := false, last := s.bannerFields }
      else s
  else s

/-- One strip line composed and taken (R24, R25). -/
def State.takeStrip (s : State) (i : Nat) : State :=
  (s.setStore (takeOffer s.store (s.router.map.routeStrip.base + i) false (s.stripWords i (seqNext s.route.stripSeq)))).setRoute
    { s.route with
      stripSeq := seqNext s.route.stripSeq
      stripLast := s.route.stripLast.set i (s.stripTimesAt i) }

/-- The pending strip lines in rising order, as far as the store takes them (R25). -/
def State.offerStrips (s : State) : List Nat → State
  | [] => s.setRoute { s.route with stripPending := [] }
  | i :: r =>
    if canTake s.store (s.router.map.routeStrip.base + i) then (s.takeStrip i).offerStrips r
    else s.setRoute { s.route with stripPending := i :: r }

/-- One seat's line composed and taken: sequence advanced, flags and last content replaced (R58). -/
def State.takeSeat (s : State) (n : Nat) (c : SeatContent) : State :=
  let rec_ := s.seats.recs.getD n {}
  (s.setStore (takeOffer s.store (s.router.map.seatLabel.base + n) false (seatWords c (seqNext rec_.seq)))).setSeats
    { s.seats with recs := s.seats.recs.set n { composed := true, last := c, seq := seqNext rec_.seq } }

/-- The pending seats in rising order: a seat whose content is unchanged leaves without a composition; otherwise its line
is taken while the store can take it (R58, R59). -/
def State.offerSeats (s : State) : List Nat → State
  | [] => s.setSeats { s.seats with pending := [] }
  | n :: r =>
    let c := resolveSeat s.route s.seats n
    let rec_ := s.seats.recs.getD n {}
    if rec_.composed && decide (rec_.last = c) then s.offerSeats r
    else if canTake s.store (s.router.map.seatLabel.base + n) then (s.takeSeat n c).offerSeats r
    else s.setSeats { s.seats with pending := n :: r }

/-- Every standing offer that the store can take is taken, in the composers' order of R93. Each step of the part ends with
it (log 8); the composers offer in ACTIVE alone (R88, R105, R106). -/
def State.settle (s : State) : State :=
  if s.active then
    let s := s.offerPhase.offerEvent.offerCounter.offerPosition.offerArrival.offerBanner
    let s := s.offerStrips s.route.stripPending
    s.offerSeats s.seats.pending
  else s

end Sys2Proof.Machine
end

