-- ==== Sys2Proof/Machine/Events.lean ====
section
/-! DEFINITION. What each block does on the events that the Route Tracker and the Odometry Unit hand on (R22, R40), each event
given to its receivers in the order the manual lists them. -/

namespace Sys2Proof.Machine

/-! ### Pieces -/

/-- The estimate invalid: value 0, held flag clear (R36). -/
def State.invalidate (s : State) : State := s.setOdo { s.odo with est := {} }

/-- The Position line becomes pending when a field differs from the line last composed (R168). -/
def State.comparePosition (s : State) : State :=
  if s.positionFields = s.report.posLast then s else s.onReport fun r => { r with pendPosition := true }

/-- The Report Unit's copies of position, reported speed and settled state, from WINDOW_END or POSITION_SET (R168). -/
def State.copyPosition (s : State) : State :=
  (s.onReport fun r =>
    { r with posM := s.odo.position / 1000, repSpeed := s.odo.repSpeed, settled := s.odo.settled }).comparePosition

/-! ### Progress events (R22) -/

/-- The Odometry Unit on STAGE_CHANGE: some states invalidate the estimate, HALTED holds a valid one (R36). -/
def State.stageOdo (s : State) : State :=
  match s.route.progress with
  | .standing => s.invalidate
  | .preJourney => s.invalidate
  | .noRoute => s.invalidate
  | .ended => s.invalidate
  | .halted => if s.odo.est.valid then s.setOdo { s.odo with est := { s.odo.est with held := true } } else s
  | .departed => s
  | .running => s
  | .approaching => s
  | .arriving => s

/-- The boundary of the expiry at ENDED: the CURRENT slot, or the past line when there is no CURRENT (R56). -/
def Route.endBound (r : Route) : Nat :=
  match r.current with
  | some c => c + 1
  | none => r.pastEnd

/-- The Seat Resolver on STAGE_CHANGE: the expiry of R56 at ENDED, and a full resolution where R61 says so. -/
def State.stageSeats (s : State) (old : Progress) : State :=
  let s' := if s.route.progress = .ended then s.expireBelow s.route.endBound else s
  if old.near || s.route.progress.near || s.route.progress.blank then s'.fullResolution else s'

/-- The Phase Generator on STAGE_CHANGE: a change of blank-all advances the sequence and makes the line pending (R117). -/
def State.stagePhase (s : State) : State :=
  if s.phase.blankAll = s.route.progress.blank then s
  else s.setPhase { s.phase with blankAll := s.route.progress.blank, seq := seqNext s.phase.seq, pending := true }

/-- STAGE_CHANGE to the progress state as it stands, from an old one. -/
def State.handStage (s : State) (old : Progress) : State :=
  let s := (s.stageOdo.stageSeats old).updateAuto
  (s.onReport (·.setFactor .stage)).comparePosition.stagePhase

/-- The Arrival line on STOP_REACHED: recorded in EMPTY, ARRIVAL_OVERRUN in FRESH, nothing without the line (R170). -/
def State.recordArrival (s : State) (e : StopEntry) : State :=
  if s.router.map.report.len ≤ 3 then s
  else if s.report.arrival.fresh then s.handCause .arrivalOverrun .arrivalOverrun
  else s.onReport fun r =>
    { r with
      pendArrival := true
      arrival :=
        { fresh := true, stop := e.code, clock := s.route.clock, posM := s.odo.position / 1000
          lateness := match s.route.clock, e.arr with
            | some c, some a => some (latenessOf c a)
            | _, _ => none } }

/-- STOP_REACHED at a slot: Seat Resolver, Report Unit, Transfer Router (R22, R61, R110, R160, R170). -/
def State.handStopReached (s : State) (slot : Nat) : State :=
  let s := s.fullResolution.onReport (·.setFactor .stopReached)
  let s := match s.route.entry slot with
    | some e => s.recordArrival e
    | none => s
  s.comparePosition.setWindows { s.comparePosition.windows with current := some slot }

/-- DEPARTURE from a slot: Seat Resolver with the expiry of R55, Notice Sequencer with the removals of R72. -/
def State.handDeparture (s : State) (slot : Nat) : State :=
  let s := (s.expireBelow (slot + 1)).fullResolution
  s.removeAllNotices (s.notices.leaving (s.route.codeAt slot))

/-- STOP_MISSED: Seat Resolver, Report Unit. -/
def State.handStopMissed (s : State) : State :=
  (s.fullResolution.handCause .stopMissed .stopMissed).comparePosition

/-- The Notice Sequencer on TARGET_CHANGE: the AUTO refresh (R75), and the comparison when a coach computer entry is
SHOWN (R82). -/
def State.targetNotices (s : State) : State :=
  let s := s.refreshAuto
  match s.notices.shownEntry with
  | some e => if e.fromCoach then s.compareBanner else s
  | none => s

/-- TARGET_CHANGE: Odometry Unit, Seat Resolver, Notice Sequencer, Report Unit. -/
def State.handTargetChange (s : State) : State :=
  s.invalidate.fullResolution.targetNotices.comparePosition

/-- ROUTE_CHANGE: Seat Resolver (re-binding for a route record, R49), Report Unit. -/
def State.handRouteChange (s : State) (record : Bool) : State :=
  (if record then s.rebindAll else s).fullResolution.comparePosition

/-- ORIENTATION_CHANGE: Seat Resolver, Notice Sequencer, Transfer Router. -/
def State.handOrientation (s : State) : State :=
  let s := s.fullResolution.compareBanner
  s.setWindows { s.windows with reversed := s.route.reversed }

/-- UNPLANNED_STOP: Report Unit. -/
def State.handUnplannedStop (s : State) : State := s.handCause .unplannedStop .unplannedStop

/-! ### JOURNEY_RESET (R180) -/

/-- The Odometry Unit at a journey reset: the window timer and the filters kept (R41). -/
def State.resetOdo (s : State) : State :=
  s.setOdo
    { doorLevel := s.odo.doorLevel, doorCount := s.odo.doorCount, wheelLevel := s.odo.wheelLevel,
      winTimer := s.odo.winTimer }

/-- The Seat Resolver at a journey reset: Pool and flags cleared, sequences kept, every composed seat pending (R65). -/
def State.resetSeats (s : State) : State :=
  (s.setSeats { pool := [], recs := s.seats.recs.map fun x => { seq := x.seq }, pending := [] }).fullResolution

/-- The Notice Sequencer at a journey reset: the queue emptied, the mark the front, the Banner line pending, BANNER_TARGET
"no target" (R85). -/
def State.resetNotices (s : State) : State :=
  let n := { s.notices with queue := [], mark := none, dwell := 0, bannerPending := true }
  (s.setNotices n).recomputeBanner

/-- The Report Unit at a journey reset (R171). -/
def State.resetReport (s : State) : State :=
  s.onReport fun r =>
    { r with arrival := {}, posM := 0, repSpeed := 0, settled := false, pendArrival := true, pendPosition := true }

/-- JOURNEY_RESET, to every block named in R22. -/
def State.handJourneyReset (s : State) : State :=
  let s := s.resetOdo.resetSeats.resetNotices
  (s.setWindows { s.windows with current := none }).resetReport

/-! ### The Odometry Unit's events (R40) -/

/-- WINDOW_END: Report Unit, Notice Sequencer, Route Tracker. -/
def State.handWindowEnd (s : State) : State := s.copyPosition.compareBanner.joinTargetLine

/-- POSITION_SET: Report Unit, Notice Sequencer. -/
def State.handPositionSet (s : State) : State := s.copyPosition.compareBanner

/-- CLOCK_CHANGE: Report Unit, Notice Sequencer, Route Tracker. -/
def State.handClockChange (s : State) : State := s.comparePosition.compareBanner.joinTargetLine

/-- DELAY_CHANGE: Report Unit. -/
def State.handDelayChange (s : State) : State := s.comparePosition

end Sys2Proof.Machine
end

