-- ==== Sys2Proof/Machine/RouteOps.lean ====
section
/-! DEFINITION. The Route Tracker's shared actions: reselection and re-derivation, arrival and departure, position settings,
misses (R7, R14 to R17, R21, R33), and taking a record from the head of the Intake Queue (R156). -/

namespace Sys2Proof.Machine

/-! ### Reselection and re-derivation -/

/-- A new progress state, handed as STAGE_CHANGE. -/
def State.enterStage (s : State) (p : Progress) : State :=
  (s.setRoute { s.route with progress := p }).handStage s.route.progress

/-- Re-derive the moving state; a different result is handed as STAGE_CHANGE (R17). -/
def State.rederive (s : State) : State := if s.derive = s.route.progress then s else s.enterStage s.derive

/-- Select the target afresh (R7). `old` is the TARGET before the cause's changes; `replaced` says that its own entry was
replaced. A change hands TARGET_CHANGE and, in a moving state, re-derives. -/
def State.reselect (s : State) (old : Option Nat) (replaced : Bool) : State :=
  let s := s.setRoute s.route.select
  if s.route.target = old ∧ ¬ replaced then s
  else
    let s := s.handTargetChange
    if s.route.progress.moving then s.rederive else s

/-! ### Position settings (R21, R33) -/

/-- The timing points above CURRENT re-derived from the position; none in NO_ROUTE and ENDED (R21, R33). -/
def State.rederiveTimingPoints (s : State) : State :=
  if s.route.progress.blank then s
  else
    let from_ := match s.route.current with
      | some c => c + 1
      | none => 0
    s.setRoute (s.route.mapStatus fun i e =>
      if from_ ≤ i ∧ e.kind = .pass ∧ (e.status = .ahead ∨ e.status = .passed) then
        (if e.postMm ≤ s.odo.position then .passed else .ahead)
      else e.status)

/-- The distance between two positions. -/
def apartBy (a b : Nat) : Nat := (a - b) + (b - a)

/-- A position setting to P metres: FIX_JUMP check, position, remainder, estimate, timing points (R33, R21). -/
def State.setPosition (s : State) (p : Nat) : State :=
  let s' := if apartBy (p * 1000) s.odo.position > s.params.fixTol * 1000 then s.handCause .fixJump .fixJump else s
  (s'.setOdo { s'.odo with position := p * 1000, remUm := 0, est := {} }).rederiveTimingPoints

/-! ### Arrival and departure (R14, R15) -/

/-- The table and state after a stop reached at a slot (R14, steps 1 to 6). `jumped` is an arrival by STOP_CALLED beyond
the TARGET. -/
def Route.reach (r : Route) (x : Nat) (jumped : Bool) : Route :=
  let pe := r.pastEnd
  let r' := r.mapStatus fun i e =>
    if i = x then .current
    else if e.status = .current then .passed
    else if jumped ∧ pe ≤ i ∧ i < x ∧ e.kind = .call ∧ (e.status = .ahead ∨ e.status = .target) then .missed
    else if i < x ∧ e.kind = .pass ∧ e.status = .ahead then .passed
    else e.status
  { r' with progress := .standing, departFlag := false, lastMissed := none }.select

/-- The implied fix of a stop reached by STOP_CALLED, with its POSITION_SET (R18, R33) (DEDUCED, log 20). -/
def State.impliedFix (s : State) (x : Nat) : State :=
  match s.route.entry x with
  | some e => (s.setPosition e.post).handPositionSet
  | none => s

/-- A stop reached at a slot, with its events (R14). `called` says that STOP_CALLED reached it, so that the position is
set after the steps of R14 and before the events (R18) (DEDUCED, log 19). -/
def State.arrive (s : State) (x : Nat) (jumped called : Bool) : State :=
  let old := s.route
  let s := s.setRoute (s.route.reach x jumped)
  let s := if called then s.impliedFix x else s
  let s := (s.handStopReached x).handStage old.progress
  let s := if s.route.target = old.target then s else s.handTargetChange
  s.joinChanged old

/-- DEPARTURE handed for the CURRENT entry (R15). -/
def State.leaveCurrent (s : State) : State :=
  match s.route.current with
  | some c => s.handDeparture c
  | none => s

/-- The coach departs: DEPARTED, or ENDED at the final stop (R15) (DESIGN CHOICE, log 21). -/
def State.departNow (s : State) : State :=
  let s := s.leaveCurrent
  s.enterStage (if s.route.target.isSome then .departed else .ended)

/-! ### Window ends (R16) -/

/-- Step 1: timing points at or below the position are PASSED. -/
def State.passTimingPoints (s : State) : State :=
  if s.route.progress.blank then s
  else
    s.setRoute (s.route.mapStatus fun i e =>
      if s.route.pastEnd ≤ i ∧ e.kind = .pass ∧ e.status = .ahead ∧ e.postMm ≤ s.odo.position then .passed
      else e.status)

/-- Step 2: PRE_JOURNEY left by distance. -/
def State.leavePreJourney (s : State) : State :=
  match s.route.target, s.route.targetEntry with
  | some t, some e =>
    if e.postMm + s.params.departM * 1000 ≤ s.odo.position then
      let s := s.setRoute (s.route.mark t .passed).select
      (s.enterStage (if s.route.target.isSome then .running else .ended)).handTargetChange
    else s
  | _, _ => s

/-- One miss: the TARGET MISSED, the last-missed slot, STOP_MISSED, the reselection with TARGET_CHANGE (R16, step 3). -/
def State.missTarget (s : State) (t : Nat) : State :=
  let s := s.setRoute { s.route.mark t .missed with lastMissed := some t }
  let s := s.handStopMissed
  (s.setRoute s.route.select).handTargetChange

/-- The TARGET is passed by the pass margin. -/
def State.targetOverrun (s : State) : Option Nat :=
  match s.route.target, s.route.targetEntry with
  | some t, some e => if e.postMm + s.params.passMargin * 1000 ≤ s.odo.position then some t else none
  | _, _ => none

/-- Step 3 repeated, at most once for each slot. -/
def State.missAll (s : State) : Nat → State
  | 0 => s
  | n + 1 =>
    match s.targetOverrun with
    | some t => (s.missTarget t).missAll n
    | none => s

/-- Step 4: a moving state goes forward, never back. -/
def State.moveForward (s : State) : State :=
  if s.route.progress.moving ∧ s.route.progress.rank < s.derive.rank then s.enterStage s.derive else s

/-- The Route Tracker's steps at a window end (R16). PRE_JOURNEY, STANDING and HALTED take no step 3 or 4 (DEDUCED, log 13). -/
def State.routeWindowEnd (s : State) : State :=
  let old := s.route
  let s := s.passTimingPoints
  let s :=
    if s.route.progress = .preJourney then s.leavePreJourney
    else if s.route.progress.moving then
      (if s.targetOverrun.isSome then (s.missAll Config.routeSlots).rederive else s.moveForward)
    else s
  s.joinChanged old

/-! ### The Odometry Unit (R29 to R31, R35) -/

/-- The steps of R30 and R31 at a window end. -/
def Odo.windowEnd (o : Odo) (p : Params) : Odo :=
  let prev := o.ring.getLast?.getD 0
  let ring := o.ring.drop 1 ++ [o.winDist]
  let v := ring.sum / 4
  let run := if apartBy o.winDist prev ≤ p.hysteresis then min 255 (o.stableRun + 1) else 0
  { o with
    ring := ring
    speed := v
    repSpeed := min 4000 ((v * 36 + 500) / 1000)
    stableRun := run
    settled := decide (p.stableWindows ≤ run) && decide (p.minSpeed ≤ v)
    winDist := 0
    winTimer := 0 }

/-- The estimate of R35 from a remaining distance in mm. -/
def Odo.estimate (o : Odo) (p : Params) (rem : Nat) : Estimate :=
  if rem = 0 then { value := 0, valid := true, held := false }
  else if o.speed < p.minSpeed then (if o.est.valid then { o.est with held := true } else o.est)
  else
    let e := min 99 ((rem + o.speed * 60 - 1) / (o.speed * 60))
    if o.settled then { value := e, valid := true, held := false }
    else if o.est.valid then { value := min e o.est.value, valid := true, held := false }
    else { value := e, valid := true, held := false }

/-- The estimate computed at a window end in a moving state with a TARGET (R32, R35). -/
def State.computeEstimate (s : State) : State :=
  if s.route.progress.moving then
    match s.remaining with
    | some rem => s.setOdo { s.odo with est := s.odo.estimate s.params rem }
    | none => s
  else s

/-- A pulse taken under the closed door level: distance added (R29). -/
def Odo.addPulse (o : Odo) (um : Nat) : Odo :=
  let sum := o.remUm + um
  { o with
    position := min Config.maxPosition (o.position + sum / 1000)
    winDist := min Config.maxWindow (o.winDist + sum / 1000)
    remUm := sum % 1000 }

/-- The zero-remaining rule (R36). -/
def State.zeroRemaining (s : State) : State :=
  if s.odo.est.valid ∧ s.remaining = some 0 then
    s.setOdo { s.odo with est := { value := 0, valid := true, held := false } }
  else s

/-! ### The head of the Intake Queue (R156) -/

/-- The record at the head, while the part acts. -/
def State.head (s : State) : Option Record := if s.active then s.intake.queue.head? else none

/-- The message at the head with its slot. -/
def State.headMessage (s : State) : Option (Nat × Message) :=
  match s.head with
  | some { slot := n, contents := .message m } => some (n, m)
  | _ => none

/-- The head leaves the queue. -/
def State.popHead (s : State) : State := s.setIntake { s.intake with queue := s.intake.queue.drop 1 }

/-- A message refused by its owner: BAD_RECORD with the reason and the message slot (R3). -/
def State.refuseMessage (s : State) (why : Reason) (slot : Nat) : State := s.badRecord why .message slot

end Sys2Proof.Machine
end

