-- ==== Sys2Proof/Machine/PathOps.lean ====
section
/-! DEFINITION. The memory path: locked sequences, answers, window rewriting, take-up plans, requests at the memory port and
what the memory's answers do (06, 07 and 08 of spec/). -/

namespace Sys2Proof.Machine

/-! ### Locked sequences (R144 to R147) -/

/-- A part fetch that was late for a grant (R139; log 39) is late no longer: an upstream transfer has been taken up since the answer
that freed the port, or a sequence has ended, and the next grant is made among the requests standing then (R140, R145, R147). -/
def Arbiter.caughtUp (a : Arbiter) : Arbiter := { a with fetchLate := false }

/-- The sequence ends: IDLE, count 0, timer stopped (R145). -/
def Arbiter.ended (a : Arbiter) : Arbiter := { a.caughtUp with locked := false, count := 0, idle := none }

/-- Take-up of a coach computer transfer: a locked one begins a sequence in IDLE, any one stops the idle timer (R144). -/
def Arbiter.takeUp (a : Arbiter) (lock : Bool) : Arbiter :=
  if a.locked then { a.caughtUp with idle := none }
  else if lock then { a.caughtUp with locked := true, count := 0, idle := none }
  else a.caughtUp

/-- Answer of a coach computer transfer: an unlocked one ends the sequence, a locked one sets the timer (R144, R145). -/
def Arbiter.answered (a : Arbiter) (lock : Bool) : Arbiter :=
  if a.locked then (if lock then { a with idle := some Config.lockIdleTicks } else a.ended) else a

/-- A grant to the coach computer's transfer or commit fetch counts within a sequence (R144). -/
def Arbiter.counted (a : Arbiter) : Arbiter := if a.locked then { a with count := a.count + 1 } else a

/-- A request for a further grant: with 16 grants made the sequence ends by its cap, and LOCK_BROKEN is handed when the
request is locked (R146). -/
def State.askGrant (s : State) (lock : Bool) : State :=
  if s.arb.locked ∧ Config.lockCap ≤ s.arb.count then
    let s := s.setArb s.arb.ended
    if lock then s.handCause .lockBroken .lockBroken else s
  else s

/-! ### Answers to the ports -/

/-- The coach computer's transfer answered: the port free, the lock rules of the answer, COACH_TRANSFER (R131). `release`
says that it was a read of the Position line including word 7. -/
def State.answerCoach (s : State) (lock : Bool) (a : Answer) (release : Bool) : State :=
  let s := s.setRouter { s.router with coach := none, commit := none, coachAnswer := some a }
  (s.setArb (s.arb.answered lock)).onReport (·.coachTransfer release)

/-- The latch of a window. -/
def Windows.latch (x : Windows) : Win → Option Latch
  | .banner => x.bannerLatch
  | .route => x.routeLatch

/-- The windows with a latch replaced. -/
def Windows.setLatch (x : Windows) (w : Win) (l : Option Latch) : Windows :=
  match w with
  | .banner => { x with bannerLatch := l }
  | .route => { x with routeLatch := l }

/-- The panel scanner's read answered; the read of a window's last offset frees its latch (R114), whatever the answer is, in a window
of one line too (DEDUCED, log 40). -/
def State.answerPanel (s : State) (frees : Option Win) (a : Answer) : State :=
  let s := s.setRouter { s.router with panel := none, panelAnswer := some a }
  match frees with
  | some w => s.setWindows (s.windows.setLatch w none)
  | none => s

/-! ### Window rewriting (R108 to R113) -/

/-- The slot base of the route window: the CURRENT stop third from the start, kept within slots 0 to 47 (R110). -/
def slotBase (current : Option Nat) : Nat :=
  match current with
  | some c => min (c - 2) 36
  | none => 0

/-- The route window base, a strip line index (R110). -/
def Windows.base (x : Windows) : Nat := if x.reversed then 36 - slotBase x.current else slotBase x.current

/-- The current target of a window (R109, R111). -/
def State.windowTarget (s : State) (w : Win) : Option Nat :=
  match w with
  | .banner => s.windows.bannerTarget
  | .route =>
    if s.router.map.routeStrip.present then some (s.router.map.routeStrip.base + s.windows.base) else none

/-- The window an aperture kind is. -/
def Place.win : Place → Option Win
  | .bannerWindow => some .banner
  | .routeWindow => some .route
  | .route => none
  | .reservation => none
  | .message => none
  | .ack => none
  | .report => none
  | .seatLabel => none
  | .routeStrip => none
  | .text => none
  | .profileBlock => none
  | .openRegion => none

/-- The window a line lies in, while apertures are in force. -/
def State.windowAt (s : State) (line : Nat) : Option Win := if s.mapped then (s.place line).win else none

/-- The aperture of a window. -/
def State.windowAperture (s : State) : Win → Aperture
  | .banner => s.router.map.bannerWindow
  | .route => s.router.map.routeWindow

/-- The line a window read is rewritten to, from the target it uses; `none` when it is answered with zero words (R109,
R111). -/
def State.rewriteTo (s : State) (w : Win) (target : Option Nat) (k : Nat) : Option Nat :=
  match w, target with
  | _, none => none
  | .banner, some t => some (t + k)
  | .route, some t =>
    if t + k < s.router.map.routeStrip.base + s.router.map.routeStrip.len then some (t + k) else none

/-- The line a coach computer read reaches: a window read by the window's current target (R112). -/
def State.coachLine (s : State) (line : Nat) : Option Nat :=
  match s.windowAt line with
  | none => some line
  | some w => s.rewriteTo w (s.windowTarget w) (line - (s.windowAperture w).base)

/-! ### Reads -/

/-- The REPORT line index of a line (R131). -/
def State.reportIndex (s : State) (line : Nat) : Option Nat :=
  if s.mapped && decide (s.place line = .report) then some (line - s.router.map.report.base) else none

/-- The data of a fully covered read: every requested word is held (R100). -/
def State.coveredRead (s : State) (overlay : Bool) (line first count : Nat) : Option (List Word) :=
  if overlay then
    match heldEntry s.store line with
    | some e => if e.coversAll first count then some (e.read first count) else none
    | none => none
  else none

/-- What a read that is granted returns: memory's words, the covered ones replaced by the newest data (R101)
(DEDUCED, log 10). A read that has asked and is fully covered by the time of its grant is granted all the same: its words are
the newest data, its answer memory's DONE or FAULT (DEDUCED, log 37). `overlay` is what the read's take-up gave it: a read taken up
in RELOADING and granted in ACTIVE is compared with the store, one taken up in LOADING or PASSIVE is not (DEDUCED, log 41). -/
def State.readData (s : State) (overlay : Bool) (r : MemReq) : List Word :=
  let ws := s.mem.words r.line r.first r.count
  if overlay then
    match heldEntry s.store r.line with
    | some e => e.overlay r.first ws
    | none => ws
  else ws

/-- REPORT_READ handed for a REPORT line (R131); none is handed in LOADING and PASSIVE, whatever part state the read was taken
up in (R136) (DEDUCED, log 32). -/
def State.handReportRead (s : State) (idx : Option Nat) (first count : Nat) : State :=
  match idx with
  | some i => if s.mapped then s.onReport (·.readLine i first count) else s
  | none => s

/-- A read of the Position line including word 7 (R131). -/
def releasesLatch (idx : Option Nat) (first count : Nat) : Bool := decide (idx = some 2) && includesWord first count 7

/-- The memory request of a transfer at a line. -/
def reqAt (t : Transfer) (line : Nat) : MemReq :=
  { write := t.write, line := line, first := t.first, count := t.count, words := t.words }

/-- A coach computer transfer that asks for the memory port (R139), the cap of R146 seen to. -/
def State.presentCoach (s : State) (t : Transfer) (kind : CoachKind) (req : MemReq) : State :=
  let s := s.askGrant t.lock
  s.setRouter { s.router with coach := some { t := t, moment := .waiting, kind := kind, req := req } }

/-- Take-up of a coach computer read (R108, R109, R125). Whether the read is compared with the Line Store is settled here, by the part
state of its take-up, for its grant in a later part state too (DEDUCED, log 41). -/
def State.takeUpRead (s : State) (t : Transfer) : State :=
  let s := s.setArb (s.arb.takeUp t.lock)
  match s.coachLine t.line with
  | none => s.answerCoach t.lock (.done (List.replicate t.count 0)) false
  | some line =>
    let idx := s.reportIndex line
    match s.coveredRead s.mapped line t.first t.count with
    | some data =>
      (s.handReportRead idx t.first t.count).answerCoach t.lock (.done data) (releasesLatch idx t.first t.count)
    | none => s.presentCoach t (.read idx s.mapped) (reqAt t line)

/-! ### Writes: the plan made at take-up (R104, R125, R127, R130, R132) -/

/-- The written word `w` of a transfer. -/
def wordAt (t : Transfer) (w : Nat) : Option WWord := if t.first ≤ w then t.words[w - t.first]? else none

/-- The transfer writes word 7 with at least one lane named. -/
def writesSeven (t : Transfer) : Bool := (wordAt t 7).any fun ww => ww.lanes != 0

/-- The record kind of a place. -/
def Place.recKind : Place → Option RecKind
  | .route => some .route
  | .reservation => some .reservation
  | .message => some .message
  | .ack => none
  | .report => none
  | .seatLabel => none
  | .routeStrip => none
  | .bannerWindow => none
  | .routeWindow => none
  | .text => none
  | .profileBlock => none
  | .openRegion => none

/-- A commit: in ACTIVE, a write to a record line whose words include word 7 with a lane named; its kind (R127). -/
def State.commitKind (s : State) (t : Transfer) : Option RecKind :=
  if s.active && t.write && writesSeven t then (s.place t.line).recKind else none

/-- A profile commit: word 7 of the fourth profile line, lane 0 named, the apply flag set (R130). -/
def State.isProfileCommit (s : State) (t : Transfer) : Bool :=
  decide (t.line = s.loader.base + 3)
    && (wordAt t 7).any fun ww => ww.lanes.getLsbD 0 && ww.data.getLsbD 0

/-- An acknowledge write: the ACK line, words that include word 0 or word 1 (R129). -/
def State.isAck (s : State) (t : Transfer) : Bool :=
  s.mapped && decide (s.place t.line = .ack)
    && (includesWord t.first t.count 0 || includesWord t.first t.count 1)

/-- How many of a write's words are held: those in the mask of its line's entry (R102). -/
def State.heldCount (s : State) (t : Transfer) : Nat :=
  if s.mapped then
    match heldEntry s.store t.line with
    | some e => min t.count (e.width - t.first)
    | none => 0
  else 0

/-- The passing part of a write, empty when every word is held (R104). -/
def State.passingPart (s : State) (t : Transfer) : MemReq :=
  let n := s.heldCount t
  { write := true, line := t.line, first := t.first + n, count := t.count - n, words := t.words.drop n }

/-- The treatment of a write's passing part. -/
def State.writeKind (s : State) (t : Transfer) : CoachKind :=
  if s.isProfileCommit t then .profile else if s.isAck t then .ack else .write

/-- The write, or its passing part, is posted (R132). -/
def State.isPosted (s : State) (t : Transfer) : Bool :=
  s.mapped && !t.lock && (s.commitKind t).isNone && (s.windowAt t.line).isNone && !s.isAck t
    && !inProfileBlock s.loader.base t.line
    && s.router.map.posted (s.place t.line) && decide (s.heldCount t < t.count)

/-- The held words of a write merged (R102, R103); a write with none leaves the Line Store as it stands. -/
def State.mergeHeld (s : State) (t : Transfer) : State :=
  if s.heldCount t = 0 then s
  else s.setStore (mergeStore s.store t.line t.first (t.words.take (s.heldCount t)))

/-- Take-up of a coach computer write that is neither posted nor a commit (R104, R125). A write that reaches take-up in a
window aperture is answered FAULT (R108; log 12). -/
def State.takeUpWrite (s : State) (t : Transfer) : State :=
  let s := s.setArb (s.arb.takeUp t.lock)
  if (s.windowAt t.line).isSome then s.answerCoach t.lock .fault false
  else if s.heldCount t = t.count then (s.mergeHeld t).answerCoach t.lock (.done []) false
  else (s.mergeHeld t).presentCoach t (s.writeKind t) (s.passingPart t)

/-- Take-up of a posted write: held words merged, passing words entered at the tail, answered DONE (R133). -/
def State.takeUpPosted (s : State) (t : Transfer) : State :=
  let s := s.setArb (s.arb.takeUp t.lock)
  let p := s.passingPart t
  let s := s.mergeHeld t
  let s := s.setRouter
    { s.router with posts := s.router.posts ++ [{ line := p.line, first := p.first, words := p.words }] }
  s.answerCoach t.lock (.done []) false

/-- Take-up of a commit (R128, R150): RETRY when the queue is full, which ends a locked sequence (R145); otherwise the commit
in progress asks for its write. -/
def State.takeUpCommit (s : State) (t : Transfer) (k : RecKind) : State :=
  if Config.intakeCap ≤ s.intake.queue.length then
    let s := s.handCause .intakeRetry .intakeRetry
    let s := if s.arb.locked then s.setArb s.arb.ended else s
    s.answerCoach t.lock .retry false
  else
    let s := s.setArb (s.arb.takeUp t.lock)
    let s := s.setIntake { s.intake with reserved := true }
    let s := s.setRouter
      { s.router with
        commit := some
          { line := t.line, kind := k, slot := t.line - (s.router.map.ofRecKind k).base, lock := t.lock, fetching := false } }
    s.presentCoach t .commit (reqAt t t.line)

/-! ### Panel reads (R113, R114, R126, R134) -/

/-- How many entries of the Post Buffer a read of a line waits for: up to the last that names the line (R134). -/
def postsFor (line : Nat) : List Post → Nat
  | [] => 0
  | p :: r => if postsFor line r = 0 then (if p.line = line then 1 else 0) else postsFor line r + 1

/-- A panel read of window offset 0 latches the current target (R113). -/
def State.latchWindow (s : State) (w : Win) (k : Nat) : State :=
  if k = 0 then
    s.setWindows (s.windows.setLatch w (some { target := s.windowTarget w, timer := Config.latchTicks }))
  else s

/-- The target a panel read uses: the latched one while LATCHED, the current one while FREE (R112). -/
def State.panelTarget (s : State) (w : Win) : Option Nat :=
  match s.windows.latch w with
  | some l => l.target
  | none => s.windowTarget w

/-- A panel read of a line, its rewriting done: waits for posts, is answered from the Line Store, or asks (R126, R134). Whether it is
compared with the Line Store is settled here, for its grant in a later part state too (DEDUCED, log 41). -/
def State.panelAt (s : State) (t : Transfer) (line : Nat) (frees : Option Win) : State :=
  let n := postsFor line s.router.posts
  let tx : PanelTx :=
    { t := t, moment := .waiting, posts := n, req := reqAt t line, overlay := s.mapped, frees := frees }
  if n = 0 then
    match s.coveredRead s.mapped line t.first t.count with
    | some data => s.answerPanel frees (.done data)
    | none => s.setRouter { s.router with panel := some tx }
  else s.setRouter { s.router with panel := some tx }

/-- Take-up of a panel read (R108 to R114, R126). A window read with no line to be rewritten to is answered zeros at its
take-up: it waits for no post, since R134 names no line for it to wait for (DEDUCED, log 34). -/
def State.takeUpPanel (s : State) (t : Transfer) : State :=
  let s := s.setArb s.arb.caughtUp
  match s.windowAt t.line with
  | none => s.panelAt t t.line none
  | some w =>
    let k := t.line - (s.windowAperture w).base
    let s := s.latchWindow w k
    let frees := if k + 1 = (s.windowAperture w).len then some w else none
    match s.rewriteTo w (s.panelTarget w) k with
    | none => s.answerPanel frees (.done (List.replicate t.count 0))
    | some line => s.panelAt t line frees

/-- The last post a panel read waited for is answered: at the point where it now asks for the port it may be fully covered
(R100, R134). -/
def State.panelReady (s : State) (p : PanelTx) : State :=
  match s.coveredRead p.overlay p.req.line p.req.first p.req.count with
  | some data => s.answerPanel p.frees (.done data)
  | none => s.setRouter { s.router with panel := some { p with posts := 0 } }

/-- A post answered: a panel read that waits for posts waits for one fewer (R134). -/
def State.panelPostGone (s : State) : State :=
  match s.router.panel with
  | none => s
  | some p =>
    if p.posts = 0 then s
    else if p.posts = 1 then s.panelReady p
    else s.setRouter { s.router with panel := some { p with posts := p.posts - 1 } }

/-! ### Requests and grants (R139 to R142) -/

/-- The coach computer's transfer, or its commit's write, stands. -/
def State.coachStands (s : State) : Option CoachTx :=
  match s.router.coach with
  | some c => if c.moment = .waiting ∧ ¬ (s.router.commit.any (·.fetching)) then some c else none
  | none => none

/-- The commit fetch stands. -/
def State.fetchStands (s : State) : Option Commit :=
  match s.router.coach, s.router.commit with
  | some c, some k => if c.moment = .waiting ∧ k.fetching then some k else none
  | _, _ => none

/-- A profile line read stands: its line in the block is the number of lines read. -/
def State.profileStands (s : State) : Option Nat := s.loader.fetch.map fun ws => ws.length / 8

/-- The panel port's request stands. -/
def State.panelStands (s : State) : Option PanelTx :=
  match s.router.panel with
  | some p => if p.moment = .waiting then some p else none
  | none => none

/-- A coach computer write to a line is outstanding: in the Post Buffer or waiting for its grant (R95). -/
def State.writeOutstanding (s : State) (line : Nat) : Bool :=
  s.router.posts.any (fun p => decide (p.line = line))
    || s.coachStands.any (fun c => c.req.write && decide (c.req.line = line))

/-- The Line Store's request stands: the conditions of R95. One whose conditions come to hold with an answer that frees the port stands
at the grant that follows (DESIGN CHOICE, log 42). -/
def State.storeStands (s : State) : Option Entry :=
  if s.mapped && s.store.all (fun e => !e.writing) then
    match oldestDirty s.store with
    | some e => if s.writeOutstanding e.line then none else some e
    | none => none
  else none

/-- A transfer presented to memory: the port is busy with it, and a part fetch that stands competes for the next free port. -/
def State.present (s : State) (o : Owner) (r : MemReq) (data : List Word) : State :=
  s.setArb { s.arb with port := some { owner := o, req := r, data := data }, fetchLate := false }

/-- A request at level 3 or 4 stands. -/
def State.othersStand (s : State) : Bool :=
  s.panelStands.isSome || s.coachStands.isSome || !s.router.posts.isEmpty || s.storeStands.isSome

/-- A part fetch is presented by the answer that frees the port. The two come together (R139): where another request stands then,
whether the answer is taken first is a free value (log 39), and the grant that follows is made among the others. Within a locked
sequence no other request could be granted (R140), and the fetch stands by its end. -/
def State.presentFetch (s : State) : State :=
  (s.setArb { s.arb with fetchLate := !s.arb.locked && s.othersStand && Config.answerFirst s.free }).setFree (s.free + 1)

/-- Grant of the coach computer's transfer: counted in a sequence, the flag COACH, a read's data captured and REPORT_READ
handed (R101, R131, R141, R144). -/
def State.grantCoach (s : State) (c : CoachTx) : State :=
  let s' := s.setArb { s.arb.counted with lastStore := false }
  let s' := s'.setRouter { s'.router with coach := some { c with moment := .underWay } }
  match c.kind with
  | .read idx overlay => (s'.present .coach c.req (s.readData overlay c.req)).handReportRead idx c.req.first c.req.count
  | .write => s'.present .coach c.req []
  | .ack => s'.present .coach c.req []
  | .profile => s'.present .coach c.req []
  | .commit => s'.present .coach c.req []

/-- A read of all eight words of a line. -/
def lineRead (line : Nat) : MemReq := { write := false, line := line, first := 0, count := 8, words := [] }

/-- Grant of the commit fetch: counted in a sequence, the flag as it was (R141, R144, R151). -/
def State.grantFetch (s : State) (k : Commit) : State :=
  let s' := (s.setArb s.arb.counted).present .commitFetch (lineRead k.line) (s.mem.words k.line 0 8)
  s'.setRouter { s'.router with coach := s'.router.coach.map fun c => { c with moment := .underWay } }

/-- Grant of a profile line read (R174). -/
def State.grantProfile (s : State) (n : Nat) : State :=
  s.present (.profileLine false) (lineRead (s.loader.base + n)) (s.mem.words (s.loader.base + n) 0 8)

/-- Grant of the head post; the flag COACH (R133, R141, R142). -/
def State.grantPost (s : State) : State :=
  match s.router.posts with
  | [] => s
  | p :: _ =>
    (s.setArb { s.arb with lastStore := false }).present .post
      { write := true, line := p.line, first := p.first, count := p.words.length, words := p.words } []

/-- Grant of the panel read for itself (R142). -/
def State.grantPanel (s : State) (p : PanelTx) : State :=
  (s.present .panel p.req (s.readData p.overlay p.req)).setRouter
    { s.router with panel := some { p with moment := .underWay } }

/-- Grant of a write-back: the entry WRITING, its data as it stands written with all lanes; the flag STORE (R95, R141). -/
def State.grantStore (s : State) (e : Entry) : State :=
  let s' := s.setStore (grantWriteback s.store)
  (s'.setArb { s'.arb with lastStore := true }).present .writeback
    { write := true, line := e.line, first := 0, count := e.width
      words := e.data.map fun w => { data := w, lanes := BitVec.allOnes 4 } } []

/-- The coach computer's traffic at level 4: its transfer, or the head post. -/
def State.grantTraffic (s : State) : State :=
  match s.coachStands with
  | some c => s.grantCoach c
  | none => s.grantPost

/-- Level 4: between the coach computer's traffic and the write-back (R141). -/
def State.grantLevel4 (s : State) : State :=
  let traffic := s.coachStands.isSome || !s.router.posts.isEmpty
  match s.storeStands with
  | none => if traffic then s.grantTraffic else s
  | some e =>
    if traffic && !urgent s.store && s.arb.lastStore then s.grantTraffic else s.grantStore e

/-- Levels 3 and 4 of the grant order (R140): every request but a part fetch. -/
def State.grantOthers (s : State) : State :=
  match s.panelStands with
  | some p => if p.posts = 0 then s.grantPanel p else s.grantPost
  | none => s.grantLevel4

/-- Levels 2 to 4 of the grant order (R140): the part fetch, but where it came after the answer that freed the port and another
request stood then (R139). -/
def State.grantUnlocked (s : State) : State :=
  if s.arb.fetchLate && s.othersStand then s.grantOthers
  else
    match s.fetchStands, s.profileStands with
    | some k, _ => s.grantFetch k
    | none, some n => s.grantProfile n
    | none, none => s.grantOthers

/-- The grant at a free port (R140): level 1 alone while a locked sequence is in progress. -/
def State.grantNext (s : State) : State :=
  if s.arb.locked then
    match s.coachStands, s.fetchStands with
    | some c, _ => s.grantCoach c
    | none, some k => s.grantFetch k
    | none, none => s
  else s.grantUnlocked

/-! ### The memory's answers -/

/-- Memory after a presented transfer is answered DONE, or FAULT: a failed write leaves free bytes in its words (log 4)
(DEDUCED, log 10). -/
def State.finish (s : State) (r : MemReq) (ok : Bool) : State :=
  if r.write then
    (if ok then s.setMem (s.mem.writeWords r.line r.first r.words)
     else (s.setMem (s.mem.scribble s.free (byteAddr r.line r.first 0) (4 * r.words.length))).setFree
       (s.free + 4 * r.words.length))
  else s

/-- The memory port free. -/
def State.freePort (s : State) : State := s.setArb { s.arb with port := none }

/-- The transfer at the port when it has an owner. -/
def State.presentedBy (s : State) (o : Owner) : Option Presented :=
  match s.arb.port with
  | some p => if p.owner = o then some p else none
  | none => none

/-- The coach computer's transfer at the port, with its treatment. -/
def State.coachAtPort (s : State) : Option (Presented × CoachTx) :=
  match s.presentedBy .coach, s.router.coach with
  | some p, some c => some (p, c)
  | _, _ => none

/-- ACK_WRITE with words 0 and 1 where the write includes them (R129); none is handed in LOADING and PASSIVE, whatever part
state the write was taken up in (R136, R163, R178) (DEDUCED, log 32). -/
def State.handAck (s : State) (t : Transfer) : State :=
  if s.mapped then s.onReport (·.ack (wordAt t 0) (wordAt t 1)) else s

end Sys2Proof.Machine
end

