-- ==== Sys2Proof/Machine/LoaderOps.lean ====
section
/-! DEFINITION. The Profile Loader and the restarts (11_profile_start_up_and_restarts.md), with the values each block's chapter
gives for them. -/

namespace Sys2Proof.Machine

/-! ### RESET (R181) -/

/-- An outstanding transfer is answered FAULT at reset; a port with none keeps the answer it was last given (R138). -/
def faultIf (outstanding : Bool) (last : Option Answer) : Option Answer := if outstanding then some .fault else last

/-- Every block at its after-RESET values with RESET asserted. Kept: memory, the other input lines, the profile base (R173),
a transfer already presented to memory (R148), the commands waiting and the counter of free values (DESIGN CHOICE, log 28). -/
def State.resetBlocks (s : State) : State :=
  { pins := { s.pins with reset := true }
    loader := { base := s.loader.base }
    router :=
      { coachAnswer := faultIf s.router.coach.isSome s.router.coachAnswer
        panelAnswer := faultIf s.router.panel.isSome s.router.panelAnswer }
    arb := { port := s.arb.port.map fun p => { p with owner := .abandoned } }
    mem := s.mem
    free := s.free
    pending := s.pending }

/-- The profile base chosen by the straps, as a line number (R173). -/
def strapBase (psel1 psel0 : Bool) : Nat :=
  match psel1, psel0 with
  | false, false => 0
  | false, true => 32768
  | true, false => 1048576
  | true, true => 2097148

/-! ### Leaving and entering ACTIVE (R177, R178, R179) -/

/-- The values of the blocks after a profile reload, nothing pending: Route Tracker (R26), Odometry Unit (R41), Seat Resolver
(R65), Notice Sequencer (R84), windows (R119), Phase Generator (R120), Record Intake (R159), Position read latch (R171; DEDUCED,
log 17). The DOOR and WHEEL filters and a chime pulse under way are kept. -/
def State.freshBlocks (s : State) : State :=
  { s with
    route := {}
    odo := { doorLevel := s.odo.doorLevel, doorCount := s.odo.doorCount, wheelLevel := s.odo.wheelLevel }
    seats := {}
    notices := { chimeTimer := s.notices.chimeTimer }
    windows := {}
    phase := {}
    intake := {}
    report := { s.report with latch := none } }

/-- The part state, with no fetch in progress and the drain mark clear. -/
def State.setPart (s : State) (p : PartState) : State :=
  s.setLoader { s.loader with part := p, fetch := none, drained := false }

/-- Entry to ACTIVE under the profile copy (R177): the map filled, every strip line and composed seat pending, the Banner,
Phase and four report lines pending, the entry cause recorded. -/
def State.enterActive (s : State) (c : Cause) : State :=
  let s := (s.setPart .active).freshBlocks
  let s := s.setRouter { s.router with map := s.loader.profile.aps }
  let s := (s.setRoute { s.route with stripPending := s.allStrip }).fullResolution
  let s := s.setNotices { s.notices with bannerPending := true }
  let s := s.setPhase { s.phase with pending := true }
  s.onReport fun r =>
    { r with pendEvent := true, pendCounter := true, pendPosition := true, pendArrival := true, cause := some c }

/-- Entry to PASSIVE (R178): the map empty, the blocks cleared, PROFILE_REJECTED set and enabled. With the empty map the open region
is not posted, in a RELOADING entered from here too (R124, R132; DESIGN CHOICE, log 38). -/
def State.enterPassive (s : State) : State :=
  let s := (s.setPart .passive).freshBlocks
  let s := s.setRouter { s.router with map := {} }
  s.onReport fun r => { r.setFactor .profileRejected with mask := r.mask ||| Factor.profileRejected.bit, pendEvent := true }

/-- The Line Store hands DRAINED when it is empty in RELOADING: the drain mark set and the fetch started (R106, R179). -/
def State.checkDrained (s : State) : State :=
  if s.loader.part = .reloading ∧ s.loader.drained = false ∧ s.store = [] then
    s.setLoader { s.loader with drained := true, fetch := some [] }
  else s

/-- Entry to RELOADING (R179): the Intake Queue discarded (R159), the composers' pending work cleared (R25, R63, R84, R120),
the Report Unit cleared (R171). -/
def State.enterReloading (s : State) : State :=
  let s := (s.setPart .reloading).setIntake {}
  let s := s.setRoute { s.route with stripPending := [] }
  let s := s.setSeats { s.seats with pending := [] }
  let s := s.setNotices { s.notices with bannerPending := false }
  let s := s.setPhase { s.phase with pending := false }
  (s.onReport Report.cleared).checkDrained

/-- A fetch begun since the part held `before` is presented (R174, R179). -/
def State.fetchSince (s : State) (before : Option (List Word)) : State :=
  if s.loader.fetch = before ∨ s.loader.fetch = none then s else s.presentFetch

/-- A restarted fetch begins again at line 0; a read of the discarded one already presented is not taken (R174). -/
def State.restartFetch (s : State) : State :=
  let s := s.setLoader { s.loader with fetch := some [] }
  match s.presentedBy (.profileLine false) with
  | some p => s.setArb { s.arb with port := some { p with owner := .profileLine true } }
  | none => s

/-- PROFILE_COMMIT taken by the Profile Loader, by part state (R179). -/
def State.takeProfileCommit (s : State) : State :=
  match s.loader.part with
  | .active => s.enterReloading
  | .passive => s.enterReloading
  | .reloading => if s.loader.drained then s.restartFetch else s
  | .loading => s.restartFetch

/-- The profile check on the 32 words fetched, and its outcome (R175 to R178). -/
def State.checkProfile (s : State) (ws : List Word) : State :=
  if profilePasses s.loader.base ws then
    (s.setLoader { s.loader with profile := profileOf ws }).enterActive
      (if s.loader.part = .loading then .start else .reload)
  else s.enterPassive

/-- A profile line read of the fetch in progress answered DONE with its words: the read of the next line is presented by the answer that
frees the port, and the order of the two is a free value, so that a panel read may be granted between two profile line reads (R139,
R174; log 39). -/
def State.takeProfileLine (s : State) (ws : List Word) : State :=
  match s.loader.fetch with
  | none => s
  | some have_ =>
    if 32 ≤ (have_ ++ ws).length then s.checkProfile (have_ ++ ws)
    else (s.setLoader { s.loader with fetch := some (have_ ++ ws) }).presentFetch

end Sys2Proof.Machine
end

