-- ==== Sys2Proof/Machine/Inputs.lean ====
section
/-! DEFINITION. The meanings of the input-line commands: RESET, the accepted door levels, the wheel edges
(R11 to R13, R28, R29, R173, R181). A command whose event the state does not admit changes nothing (log 2). -/

namespace Sys2Proof.Machine

/-- The outcome of a command: a next state. -/
abbrev Result := Host.Outcome State Fault Refusal

/-- RESET_ASSERTED (R181). -/
def execResetAsserted (s : State) : Result := .next s.resetBlocks

/-- RESET released: the straps sampled, the fetch begun in LOADING (R173, R174). -/
def State.release (s : State) (psel1 psel0 : Bool) : State :=
  (s.setPins { s.pins with reset := false, psel1 := psel1, psel0 := psel0 }).setLoader
    { s.loader with base := strapBase psel1 psel0, fetch := some [] }

/-- RESET_RELEASED, with the levels of the straps (R173): possible while RESET is asserted. -/
def execResetReleased (psel1 psel0 : Bool) (s : State) : Result :=
  .next (if s.pins.reset then s.release psel1 psel0 else s)

/-- The accepted door level changed, the filter's count restarted; DOOR has shown that level (R11) (DESIGN CHOICE, log 24). -/
def State.acceptDoor (s : State) (released : Bool) : State :=
  (s.setPins { s.pins with door := released }).setOdo { s.odo with doorLevel := released, doorCount := 0 }

/-- The departure flag (R15). -/
def State.setDepartFlag (s : State) (b : Bool) : State := s.setRoute { s.route with departFlag := b }

/-- HALTED outside a stop, and UNPLANNED_STOP (R12). -/
def State.haltNow (s : State) : State := (s.enterStage .halted).handUnplannedStop

/-- The door-release acceptance in a moving state: an arrival within the arrive distance, a halt beyond it (R12). -/
def State.releaseMoving (s : State) : State :=
  match s.route.target, s.remaining with
  | some t, some rem => if rem ≤ s.params.arriveM * 1000 then s.arrive t false false else s.haltNow
  | _, _ => s

/-- The Route Tracker on a door-release acceptance, by progress state (R12). -/
def State.doorReleased (s : State) : State :=
  match s.route.progress with
  | .noRoute => s
  | .preJourney =>
    match s.route.target with
    | some t => s.arrive t false false
    | none => s
  | .standing => s.setDepartFlag false
  | .departed => s.releaseMoving
  | .running => s.releaseMoving
  | .approaching => s.releaseMoving
  | .arriving => s.releaseMoving
  | .halted => s
  | .ended => s

/-- A door-release acceptance: the accepted level in every part state, the Route Tracker in ACTIVE (R11, R12). -/
def State.takeDoorRelease (s : State) : State :=
  let s := s.acceptDoor true
  if s.active then s.doorReleased.settle else s

/-- DOOR_RELEASE_ACCEPTANCE (R12): the accepted level was closed. -/
def execDoorReleaseAcceptance (s : State) : Result :=
  .next (if !s.pins.reset && !s.odo.doorLevel then s.takeDoorRelease else s)

/-- The Route Tracker on a door-closed acceptance (R13): the departure flag in STANDING, the end of a halt in HALTED. -/
def State.doorClosed (s : State) : State :=
  match s.route.progress with
  | .standing => s.setDepartFlag true
  | .halted => s.rederive
  | .noRoute => s
  | .preJourney => s
  | .departed => s
  | .running => s
  | .approaching => s
  | .arriving => s
  | .ended => s

/-- A door-closed acceptance (R11, R13). -/
def State.takeDoorClosed (s : State) : State :=
  let s := s.acceptDoor false
  if s.active then s.doorClosed.settle else s

/-- DOOR_CLOSED_ACCEPTANCE (R13): the accepted level was released. -/
def execDoorClosedAcceptance (s : State) : Result :=
  .next (if !s.pins.reset && s.odo.doorLevel then s.takeDoorClosed else s)

/-- The level of the WHEEL line after an edge of the counting polarity (R28). -/
def State.edgeLevel (s : State) : Bool := !s.params.falling

/-- The WHEEL line shows a level, and the filter follows it (R28, R41). -/
def State.followWheel (s : State) (level : Bool) : State :=
  (s.setPins { s.pins with wheel := level }).setOdo { s.odo with wheelLevel := some level }

/-- Before an edge the line has come back to its old level, and the filter has followed it there: an edge of the other
polarity, not counted and not reported, which the command of the next edge brings with it (R28; DESIGN CHOICE, log 25). -/
def State.returnWheel (s : State) : State :=
  if s.odo.wheelLevel = some s.edgeLevel then s.followWheel !s.edgeLevel else s

/-- An edge of the counting polarity stands before the filter: the part is ACTIVE and the line has been at its old level
(R28, R41). From the first level sampled after reset there is none (R41). -/
def State.wheelEdge (s : State) : Bool := s.active && decide (s.odo.wheelLevel = some (!s.edgeLevel))

/-- The Route Tracker on an accepted wheel pulse: a departure in STANDING with the flag set (R15, R29). -/
def State.reportPulse (s : State) : State :=
  if s.route.progress = .standing ∧ s.route.departFlag = true then s.departNow else s

/-- A pulse: discarded while the doors are released, otherwise distance, report and zero-remaining rule (R29, R36). -/
def State.takePulse (s : State) : State :=
  let s := s.followWheel s.edgeLevel
  if s.odo.doorLevel then s
  else ((s.setOdo (s.odo.addPulse s.params.pulseUm)).reportPulse.zeroRemaining).settle

/-- The WHEEL line at its new level: a pulse, or a move that the filter only follows (R28, R41). -/
def State.meetEdge (s : State) : State := if s.wheelEdge then s.takePulse else s.followWheel s.edgeLevel

/-- PULSE (R29): an edge is accepted in ACTIVE alone, and only once the line has returned to its old level (R28, R41). -/
def execPulse (s : State) : Result := .next (if s.pins.reset then s else s.returnWheel.meetEdge)

/-- A rejected edge: the line back at its old level, PULSE_REJECTED counted (R28). -/
def State.rejectPulse (s : State) : State := ((s.followWheel !s.edgeLevel).onReport (·.raise .pulseRejected)).settle

/-- The WHEEL line returned before the noise width has passed: a rejected edge, or a move that the filter only follows
(R28, R41). -/
def State.meetFragment (s : State) : State := if s.wheelEdge then s.rejectPulse else s.followWheel !s.edgeLevel

/-- PULSE_REJECTED (R28): an edge is rejected only with a noise width other than OFF, in ACTIVE alone, and only once the line
had returned to its old level before it (R28, R41). -/
def execPulseRejected (s : State) : Result :=
  .next (if s.pins.reset || decide (s.params.noise = 0) then s else s.returnWheel.meetFragment)

end Sys2Proof.Machine
end

