-- ==== Sys2Proof/Machine/Timers.lean ====
section
/-! DEFINITION. The meanings of the time-driven commands (R16, R32, R38, R79, R83, R115, R116, R147). A command stands for its
own timer reaching its end, whatever the count then is (log 1); no other timer moves with it. -/

namespace Sys2Proof.Machine

/-- A window end: Odometry Unit, estimate, Route Tracker, WINDOW_END (R32). The state before the Route Tracker's steps
decides whether the estimate is computed. -/
def State.takeWindowEnd (s : State) : State :=
  (((s.setOdo (s.odo.windowEnd s.params)).computeEstimate).routeWindowEnd.handWindowEnd).settle

/-- WINDOW_END (R32). -/
def execWindowEnd (s : State) : Result := .next (if s.active then s.takeWindowEnd else s)

/-- The clock advanced by one minute, from 1439 to 0, with a fresh tick count; CLOCK_CHANGE handed (R38). -/
def State.advanceClock (s : State) (c : Nat) : State :=
  (s.setRoute { s.route with clock := some ((c + 1) % 1440), clockTicks := 0 }).handClockChange.settle

/-- A clock advance of a set clock (R38). -/
def State.takeClockAdvance (s : State) : State :=
  match s.route.clock with
  | some c => s.advanceClock c
  | none => s

/-- CLOCK_ADVANCE (R38): the Route Tracker acts in ACTIVE (R26). -/
def execClockAdvance (s : State) : Result := .next (if s.active then s.takeClockAdvance else s)

/-- A selection after a showing that ended normally; none in NO_ROUTE and ENDED (R77). -/
def State.selectAfter (s : State) (was : Option Nat) : State :=
  if s.route.progress.blank then s.showNothing else s.selectNotice was true

/-- The SHOWN entry's dwell expires: SHOW_COUNT accounting, then a selection (R79). -/
def State.endShowing (s : State) (e : Notice) : State :=
  match e.expiry with
  | .showCount n =>
    if n ≤ 1 then (s.setNotices (s.notices.drop e.id)).selectAfter none
    else (s.setNotices (s.notices.replace { e with expiry := .showCount (n - 1) })).selectAfter (some e.id)
  | .untilCancel => s.selectAfter (some e.id)
  | .untilDepart _ => s.selectAfter (some e.id)

/-- A dwell expiry (R79). -/
def State.takeDwellExpiry (s : State) : State :=
  match s.notices.shownEntry with
  | some e => (s.endShowing e).settle
  | none => s

/-- DWELL_EXPIRY (R79): while an entry is SHOWN, in ACTIVE (R84). -/
def execDwellExpiry (s : State) : Result := .next (if s.active then s.takeDwellExpiry else s)

/-- A running chime pulse ends: CHIME deasserted, the timer idle (R83). -/
def State.endChime (s : State) : State := s.setNotices { s.notices with chimeTimer := none }

/-- CHIME_PULSE_END (R83): the timer runs in every part state. -/
def execChimePulseEnd (s : State) : Result := .next (if s.chime then s.endChime else s)

/-- A latch freed by its timer, and counted (R115). -/
def State.timeoutLatch (s : State) (w : Win) : State :=
  ((s.setWindows (s.windows.setLatch w none)).onReport (·.raise .latchTimeout)).settle

/-- REMAP_LATCH_TIMEOUT of a window (R115): while the window is LATCHED. -/
def execRemapLatchTimeout (w : Win) (s : State) : Result :=
  .next (if s.mapped && (s.windows.latch w).isSome then s.timeoutLatch w else s)

/-- A locked sequence ended by idleness: LOCK_BROKEN and LOCK_IDLE handed (R147). -/
def State.breakIdleLock (s : State) : State :=
  (((s.setArb s.arb.ended).handCause .lockBroken .lockBroken).onReport (·.raise .lockIdle)).settle

/-- LOCK_IDLE_EXPIRY (R147): while the idle timer runs. -/
def execLockIdleExpiry (s : State) : Result :=
  .next (if s.arb.locked && s.arb.idle.isSome then s.breakIdleLock else s)

/-- The toggles at a phase tick count: the plane at a multiple of 2^k, the blink state at a multiple of 2^j, one advance of
the sequence for both (R116). -/
def Phase.toggle (p : Phase) (k j : Nat) : Phase :=
  { p with
    plane := if p.tick % 2 ^ k = 0 then !p.plane else p.plane
    blink := if p.tick % 2 ^ j = 0 then !p.blink else p.blink
    seq := seqNext p.seq
    pending := true }

/-- The toggle event at the tick count as it stands (R116, R118). -/
def State.togglePhase (s : State) : State :=
  (s.setPhase (s.phase.toggle s.params.planeExp s.params.blinkExp)).settle

/-- Ticks between toggle events: the smaller of the two powers. -/
def Params.togglePeriod (p : Params) : Nat := 2 ^ min p.planeExp p.blinkExp

/-- The next count at which something toggles, with the wrap from 511 to 0 (R116). -/
def State.nextToggle (s : State) : Nat :=
  (s.phase.tick / s.params.togglePeriod + 1) * s.params.togglePeriod % Config.phasePeriod

/-- PHASE_TOGGLE (R116): the tick count reaches the next multiple of 2^k or 2^j. -/
def execPhaseToggle (s : State) : Result :=
  .next (if s.active then (s.setPhase { s.phase with tick := s.nextToggle }).togglePhase else s)

end Sys2Proof.Machine
end

