-- ==== Sys2Proof/WellFormed.lean ====
section
/-! DEFINITION. Which commands are commands of the manual: the field ranges of a transfer (R121). -/

namespace Sys2Proof

/-- The line is one of the 2,097,152 lines of the space (R121). -/
def Transfer.lineOk (t : Transfer) : Bool := decide (t.line ≤ Config.maxLine)

/-- The other fields of a transfer are in the ranges of R121: a first word 0 to 7, 1 to 8 words, data and lanes for
each word written and none for a read, the lock flag clear on the panel port. -/
def Transfer.formOk (t : Transfer) : Bool :=
  decide (t.first ≤ 7) && decide (1 ≤ t.count) && decide (t.count ≤ 8)
    && decide (t.words.length = if t.write then t.count else 0)
    && !(t.lock && decide (t.port = .panel))

/-- Whether a command is one the manual knows: a transfer has the fields of R121; every other operand is one bit or a
name and always is. -/
def Instr.wf (i : Instr) : Bool :=
  match i with
  | .transferArrival t => t.lineOk && t.formOk
  | .resetAsserted => true
  | .resetReleased _ _ => true
  | .doorReleaseAcceptance => true
  | .doorClosedAcceptance => true
  | .pulse => true
  | .pulseRejected => true
  | .windowEnd => true
  | .clockAdvance => true
  | .dwellExpiry => true
  | .chimePulseEnd => true
  | .remapLatchTimeout _ => true
  | .lockIdleExpiry => true
  | .phaseToggle => true
  | .coachRead => true
  | .coachWrite => true
  | .postedWrite => true
  | .commit => true
  | .panelRead => true
  | .grant => true
  | .passingTransferAnswer _ => true
  | .postAnswer _ => true
  | .commitWriteAnswer _ => true
  | .commitFetchAnswer _ => true
  | .profileLineReadAnswer _ => true
  | .writebackCompletion _ => true
  | .ackWrite => true
  | .profileCommit => true
  | .routeRecord => true
  | .routeRecordEmpty => true
  | .reservationRecord => true
  | .void => true
  | .positionFix => true
  | .stopCalled => true
  | .stopSkipped => true
  | .stopRestored => true
  | .depart => true
  | .delay => true
  | .clock => true
  | .portionSet => true
  | .orientation => true
  | .noticeAdd => true
  | .noticeCancel => true
  | .journeyReset => true
  | .presentedTransferFinished _ => true

end Sys2Proof
end

