-- ==== Sys2Proof/Machine/Transfers.lean ====
section
/-! DEFINITION. The meanings of the transfer commands: arrival, take-up and grant (R121 to R142, R150). -/

namespace Sys2Proof.Machine

/-- The form checks of R122; while RESET is asserted every transfer is refused (R138). -/
def State.refusedAtArrival (s : State) (t : Transfer) : Bool :=
  s.pins.reset || decide (8 < t.first + t.count) || (t.write && decide (t.port = .panel))
    || (t.write && (s.windowAt t.line).isSome)

/-- The port has a transfer outstanding (R121). -/
def State.portBusy (s : State) (p : Port) : Bool :=
  match p with
  | .coach => s.router.coach.isSome
  | .panel => s.router.panel.isSome

/-- A transfer answered FAULT at its arrival, nothing else changed (R122). -/
def State.faultAtArrival (s : State) (p : Port) : State :=
  match p with
  | .coach => s.setRouter { s.router with coachAnswer := some .fault }
  | .panel => s.setRouter { s.router with panelAnswer := some .fault }

/-- A transfer that has arrived and waits for its take-up. -/
def State.arrived (s : State) (t : Transfer) : State :=
  match t.port with
  | .coach =>
    s.setRouter
      { s.router with
        coach := some { t := t, moment := .arrived, kind := .write, req := reqAt t t.line }, coachAnswer := none }
  | .panel =>
    s.setRouter
      { s.router with
        panel := some { t := t, moment := .arrived, posts := 0, req := reqAt t t.line, overlay := false, frees := none }
        panelAnswer := none }

/-- An arriving transfer of R121 (R122): a port takes its next transfer after it has answered the one before
(DEDUCED, log 16). -/
def State.takeArrival (s : State) (t : Transfer) : State :=
  if s.portBusy t.port then s
  else if s.refusedAtArrival t then s.faultAtArrival t.port
  else s.arrived t

/-- TRANSFER_ARRIVAL (R121, R122) (DESIGN CHOICE, log 15). -/
def execTransferArrival (t : Transfer) (s : State) : Result :=
  if t.lineOk then (if t.formOk then .next (s.takeArrival t) else .refused .notATransfer) else .fault .noSuchLine

/-- The coach computer's transfer that waits for its take-up. -/
def State.coachArrived (s : State) : Option Transfer :=
  match s.router.coach with
  | some c => if c.moment = .arrived then some c.t else none
  | none => none

/-- A coach computer transfer that is taken up when the Post Buffer is empty (R134). -/
def State.readyUnposted (s : State) : Option Transfer := if s.router.posts.isEmpty then s.coachArrived else none

/-- COACH_READ (R125): take-up of an arrived read with the Post Buffer empty. -/
def execCoachRead (s : State) : Result :=
  .next (match s.readyUnposted with
    | some t => if t.write then s else (s.takeUpRead t).settle
    | none => s)

/-- COACH_WRITE (R125): take-up of an arrived write that is neither posted nor a commit. -/
def execCoachWrite (s : State) : Result :=
  .next (match s.readyUnposted with
    | some t => if t.write && !s.isPosted t && (s.commitKind t).isNone then (s.takeUpWrite t).settle else s
    | none => s)

/-- POSTED_WRITE (R133): take-up of an arrived write that is posted, when the Post Buffer has room: a write that waited for the
buffer to empty when a new Aperture Map made it one to be posted is taken up as soon as there is room (DEDUCED, log 35). -/
def execPostedWrite (s : State) : Result :=
  .next (match s.coachArrived with
    | some t =>
      if t.write && s.isPosted t && decide (s.router.posts.length < Config.postCap) then (s.takeUpPosted t).settle else s
    | none => s)

/-- COMMIT (R128): take-up of an arrived commit. -/
def execCommit (s : State) : Result :=
  .next (match s.readyUnposted with
    | some t =>
      match s.commitKind t with
      | some k => (s.takeUpCommit t k).settle
      | none => s
    | none => s)

/-- The panel scanner's read that waits for its take-up. -/
def State.panelArrived (s : State) : Option Transfer :=
  match s.router.panel with
  | some p => if p.moment = .arrived then some p.t else none
  | none => none

/-- PANEL_READ (R126): take-up of an arrived panel read. -/
def execPanelRead (s : State) : Result :=
  .next (match s.panelArrived with
    | some t => (s.takeUpPanel t).settle
    | none => s)

/-- GRANT (R140): the port is free and RESET is not asserted (R148). -/
def execGrant (s : State) : Result :=
  .next (if s.arb.port.isNone && !s.pins.reset then s.grantNext.settle else s)

end Sys2Proof.Machine
end

