-- ==== Sys2Proof/Machine/Answers.lean ====
section
/-! DEFINITION. The meanings of the memory's answers (R95, R128 to R135, R148, R151, R162, R174, R179). `ok` is DONE, its
negation FAULT. -/

namespace Sys2Proof.Machine

/-- What a passing coach computer transfer's DONE brings before the port is answered: ACK_WRITE (R129), PROFILE_COMMIT
(R130) (DESIGN CHOICE, log 22). In LOADING and PASSIVE no ACK_WRITE is handed for a write taken up in RELOADING either
(DEDUCED, log 32). -/
def State.passedDone (s : State) (c : CoachTx) : State :=
  match c.kind with
  | .ack => s.handAck c.t
  | .profile => s.takeProfileCommit
  | .write => s
  | .commit => s
  | .read _ _ => s

/-- Whether a treatment is a passing one, and not a commit. -/
def CoachKind.passing : CoachKind → Bool
  | .commit => false
  | .read _ _ => true
  | .write => true
  | .ack => true
  | .profile => true

/-- The answer upstream of a passing transfer (R135). -/
def passAnswer (ok : Bool) (data : List Word) : Answer := if ok then .done data else .fault

/-- A coach computer read of the Position line including word 7. -/
def CoachTx.releases (c : CoachTx) : Bool :=
  match c.kind with
  | .read idx _ => releasesLatch idx c.req.first c.req.count
  | .write => false
  | .ack => false
  | .profile => false
  | .commit => false

/-- The memory answers a passing coach computer transfer (R125, R129, R130, R135). The read of line 0 of a fetch that a profile commit
begins is presented with that answer (R139, R174). -/
def State.coachPassed (s : State) (p : Presented) (c : CoachTx) (ok : Bool) : State :=
  let s := (s.finish p.req ok).freePort
  let t := if ok then s.passedDone c else s
  (t.answerCoach c.t.lock (passAnswer ok p.data) c.releases).fetchSince s.loader.fetch

/-- The memory answers a panel read (R114, R135). A FAULT frees the latch of the last offset as DONE does, also where the window has one
line and the read took the latch itself, though R135 says that a latch taken at take-up stands (DEDUCED, log 40). -/
def State.panelPassed (s : State) (p : Presented) (ok : Bool) : State :=
  let s := s.freePort
  match s.router.panel with
  | some x => s.answerPanel x.frees (passAnswer ok p.data)
  | none => s

/-- The answer of a passing upstream transfer. -/
def State.takePassingAnswer (s : State) (ok : Bool) : State :=
  match s.coachAtPort, s.presentedBy .panel with
  | some (p, c), _ => if c.kind.passing then (s.coachPassed p c ok).settle else s
  | none, some p => (s.panelPassed p ok).settle
  | none, none => s

/-- PASSING_TRANSFER_ANSWER (R135). -/
def execPassingTransferAnswer (ok : Bool) (s : State) : Result := .next (s.takePassingAnswer ok)

/-- The memory answers the head post: it leaves the buffer, a FAULT hands POSTED_FAULT (R133), and a panel read that waited
for it may ask for itself or be answered (R134). -/
def State.postAnswered (s : State) (p : Presented) (ok : Bool) : State :=
  let s := (s.finish p.req ok).freePort
  let s := s.setRouter { s.router with posts := s.router.posts.drop 1 }
  let s := if ok then s else s.handCause .postedFault .postedFault
  s.panelPostGone

/-- POST_ANSWER (R133). -/
def execPostAnswer (ok : Bool) (s : State) : Result :=
  .next (match s.presentedBy .post with
    | some p => (s.postAnswered p ok).settle
    | none => s)

/-- The reserved place free (R151). -/
def State.freePlace (s : State) : State := s.setIntake { s.intake with reserved := false }

/-- The commit's write answered DONE: the step FETCHING, and the commit fetch presented, the cap of R146 seen to (R128). A panel read, a
post or a write-back may be granted between the two, as the order of the fetch and of the answer that frees the port falls (R139,
R146; free value, log 39). -/
def State.startFetch (s : State) (k : Commit) (c : CoachTx) : State :=
  ((s.askGrant k.lock).setRouter
    { s.router with commit := some { k with fetching := true }, coach := some { c with moment := .waiting } }).presentFetch

/-- The memory answers the commit's write (R128, R151). -/
def State.commitWritten (s : State) (p : Presented) (c : CoachTx) (k : Commit) (ok : Bool) : State :=
  let s := (s.finish p.req ok).freePort
  if ok then s.startFetch k c else s.freePlace.answerCoach c.t.lock .fault false

/-- COMMIT_WRITE_ANSWER (R151). -/
def execCommitWriteAnswer (ok : Bool) (s : State) : Result :=
  .next (match s.coachAtPort, s.router.commit with
    | some (p, c), some k => if c.kind = .commit then (s.commitWritten p c k ok).settle else s
    | _, _ => s)

/-- The fetched record checked: it joins the queue at the tail, or is dropped with BAD_RECORD (R151, R152). -/
def State.takeFetched (s : State) (k : Commit) (ws : List Word) : State :=
  match checkRecord s.router.map s.loader.profile.seatCount k.kind ws with
  | .ok x => s.setIntake { s.intake with queue := s.intake.queue ++ [{ slot := k.slot, contents := x }] }
  | .error why => s.badRecord why k.kind k.slot

/-- The memory answers the commit fetch (R128, R151). -/
def State.commitFetched (s : State) (p : Presented) (c : CoachTx) (k : Commit) (ok : Bool) : State :=
  let s := s.freePort
  let s := if ok then s.takeFetched k p.data else s.badRecord .fetchFault k.kind k.slot
  s.freePlace.answerCoach c.t.lock (passAnswer ok []) false

/-- COMMIT_FETCH_ANSWER (R151). -/
def execCommitFetchAnswer (ok : Bool) (s : State) : Result :=
  .next (match s.presentedBy .commitFetch, s.router.coach, s.router.commit with
    | some p, some c, some k => (s.commitFetched p c k ok).settle
    | _, _, _ => s)

/-- The memory answers a read of the fetch in progress (R174, R178). -/
def State.profileLineAnswered (s : State) (p : Presented) (ok : Bool) : State :=
  let s := s.freePort
  if ok then s.takeProfileLine p.data else s.enterPassive

/-- The memory answers a read of a discarded fetch: the port is free, and the read of line 0 of the new fetch is presented (R174). -/
def State.discardedAnswered (s : State) : State := if s.loader.fetch.isSome then s.freePort.presentFetch else s.freePort

/-- PROFILE_LINE_READ_ANSWER (R174): the answer to a discarded fetch's read is not taken. -/
def execProfileLineReadAnswer (ok : Bool) (s : State) : Result :=
  .next (match s.presentedBy (.profileLine false), s.presentedBy (.profileLine true) with
    | some p, _ => (s.profileLineAnswered p ok).settle
    | none, some _ => s.discardedAnswered
    | none, none => s)

/-- The memory answers a write-back (R95 to R97, R106). -/
def State.writebackDone (s : State) (p : Presented) (ok : Bool) : State :=
  let s := (s.finish p.req ok).freePort
  let s :=
    if ok then s.setStore (completeDone s.store)
    else (s.setStore (completeFault s.store)).handCause .writebackFault .writebackFault
  s.checkDrained.fetchSince s.loader.fetch

/-- WRITEBACK_COMPLETION (R95): a freed place goes to a waiting offer (R93). -/
def execWritebackCompletion (ok : Bool) (s : State) : Result :=
  .next (match s.presentedBy .writeback with
    | some p => (s.writebackDone p ok).settle
    | none => s)

/-- ACK_WRITE (R162): the memory answers an acknowledge write DONE (DESIGN CHOICE, log 22). -/
def execAckWrite (s : State) : Result :=
  .next (match s.coachAtPort with
    | some (p, c) => if c.kind = .ack then (s.coachPassed p c true).settle else s
    | none => s)

/-- PROFILE_COMMIT (R179): the memory answers a profile commit DONE (DESIGN CHOICE, log 22). -/
def execProfileCommit (s : State) : Result :=
  .next (match s.coachAtPort with
    | some (p, c) => if c.kind = .profile then (s.coachPassed p c true).settle else s
    | none => s)

/-- PRESENTED_TRANSFER_FINISHED (R148): the memory answers a transfer that RESET found presented; a write has reached
memory in its words and lanes, the answer, DONE or FAULT, is not taken (R138), the port becomes free. -/
def execPresentedTransferFinished (_ok : Bool) (s : State) : Result :=
  .next (match s.presentedBy .abandoned with
    | some p => (s.finish p.req true).freePort
    | none => s)

end Sys2Proof.Machine
end

