-- ==== Sys2Proof/Machine/Records.lean ====
section
/-! DEFINITION. The meanings of the commands that take a route or reservation record from the head of the Intake Queue
(R4 to R6, R45 to R48, R60, R156). -/

namespace Sys2Proof.Machine

/-! ### Gates (R60, R156) -/

/-- Route records wait for both pending sets. -/
def State.routeGate (s : State) : Bool := s.seats.pending.isEmpty && s.route.stripPending.isEmpty

/-- Reservation records wait for the seat pending set. -/
def State.seatGate (s : State) : Bool := s.seats.pending.isEmpty

/-! ### Route records (R4 to R6) -/

/-- The checks of R4, in order; `unserving` says that the record would leave its slot without a served CALL entry. -/
def State.routeRefusal (s : State) (slot : Nat) (unserving : Bool) : Option Reason :=
  if s.route.progress = .ended then some .state
  else if slot < s.route.pastEnd
      ∨ (s.route.entry slot).any (fun e => decide (e.status = .passed) || decide (e.status = .missed)) then some .past
  else if s.route.target = some slot ∧ unserving then some .inUse
  else none

/-- The record excludes the coach's portion. -/
def RouteFields.excludes (f : RouteFields) (portion : Nat) : Bool := !f.mask.getLsbD portion

/-- A CALL or PASS record is between its neighbours' posts (R5). -/
def Route.inOrder (r : Route) (slot post : Nat) : Bool :=
  r.entries.all fun q =>
    (!decide (q.1 < slot) || decide (q.2.post < post)) && (!decide (slot < q.1) || decide (post < q.2.post))

/-- The status of the entry that a record makes (R5). -/
def State.newStatus (s : State) (slot : Nat) (f : RouteFields) : Status :=
  if s.route.target = some slot then .target
  else if f.excludes s.route.portion then .notServed
  else if f.kind = .pass ∧ f.post * 1000 ≤ s.odo.position then .passed
  else .ahead

/-- The entry that a record makes (R1, R5). -/
def RouteFields.toEntry (f : RouteFields) (st : Status) : StopEntry :=
  { code := f.code, kind := f.kind, post := f.post, arr := f.arr, dep := f.dep, side := f.side, mask := f.mask,
    textBase := f.textBase, status := st }

/-- The table with one slot written. -/
def Route.put (r : Route) (slot : Nat) (e : Option StopEntry) : Route := { r with table := r.table.set slot e }

/-- What follows a change of the table by a record: target reselection, the change of progress state, ROUTE_CHANGE, the
slot's strip line and the line of every slot whose marker the reselection changes (R5, R6, R25). -/
def State.routeApplied (s : State) (old : Route) (slot : Nat) (stage : Option Progress) : State :=
  let s := s.reselect old.target (decide (old.target = some slot))
  let s := match stage with
    | some p => s.enterStage p
    | none => s
  ((s.handRouteChange true).joinChanged old).joinStrip [slot]

/-- A CALL or PASS record applied (R5): NO_ROUTE becomes PRE_JOURNEY with a CALL entry. -/
def State.applyRoute (s : State) (slot : Nat) (f : RouteFields) : State :=
  (s.setRoute (s.route.put slot (some (f.toEntry (s.newStatus slot f))))).routeApplied s.route slot
    (if s.route.progress = .noRoute ∧ f.kind = .call then some .preJourney else none)

/-- A CALL or PASS record taken (R4, R5). -/
def State.takeRoute (s : State) (slot : Nat) (f : RouteFields) : State :=
  match s.routeRefusal slot (decide (f.kind = .pass) || f.excludes s.route.portion) with
  | some why => s.badRecord why .route slot
  | none =>
    if s.route.inOrder slot f.post then s.applyRoute slot f
    else s.badRecord .order .route slot

/-- ROUTE_RECORD (R5): a CALL or PASS record at the head with both pending sets empty. -/
def execRouteRecord (s : State) : Result :=
  .next (match s.head with
    | some { slot := slot, contents := .route f } =>
      if s.routeGate then (s.popHead.takeRoute slot f).settle else s
    | _ => s)

/-- An entry removed (R6): when it was the last CALL entry, PRE_JOURNEY becomes NO_ROUTE (DEDUCED, log 30). -/
def State.removeRoute (s : State) (slot : Nat) : State :=
  let r := s.route.put slot none
  let last := (s.route.entry slot).any StopEntry.isCall && !r.entries.any (·.2.isCall)
  (s.setRoute r).routeApplied s.route slot
    (if s.route.progress = .preJourney ∧ last = true then some .noRoute else none)

/-- An EMPTY record taken (R4, R6); for an empty slot it changes nothing. -/
def State.takeRouteEmpty (s : State) (slot : Nat) : State :=
  match s.routeRefusal slot true with
  | some why => s.badRecord why .route slot
  | none => if (s.route.entry slot).isSome then s.removeRoute slot else s

/-- ROUTE_RECORD_EMPTY (R6). -/
def execRouteRecordEmpty (s : State) : Result :=
  .next (match s.head with
    | some { slot := slot, contents := .routeEmpty } =>
      if s.routeGate then (s.popHead.takeRouteEmpty slot).settle else s
    | _ => s)

/-! ### Reservation records (R45 to R48) -/

/-- The seat of a slot's old reservation joins the pending set. -/
def State.joinOldSeat (s : State) (old : Option Reservation) : State :=
  match old with
  | some x => s.joinSeat x.seat
  | none => s

/-- An accepted reservation inserted: in its slot, its seat and a replaced one's seat pending, SEAT_OVERLAP handed once when it
forms an intersecting pair (R46 to R48). -/
def State.insertReservation (s : State) (slot : Nat) (x : Reservation) : State :=
  let old := s.seats.slot slot
  let s := s.setSeats { s.seats with pool := putSlot slot x s.seats.pool }
  let s := if s.overlaps slot x.seat then s.handCause .seatOverlap .seatOverlap else s
  let s := if s.route.progress.blank then s.setFree (s.free + 1) else s
  (s.joinSeat x.seat).joinOldSeat old

/-- A reserving record taken: bound, checked for ORDER, inserted (R45). -/
def State.takeReservation (s : State) (slot : Nat) (x : Reservation) : State :=
  if x.outOfOrder s.route then s.badRecord .order .reservation slot
  else s.insertReservation slot (x.bind s.route)

/-- RESERVATION_RECORD (R45): a reserving record at the head with the seat pending set empty. -/
def execReservationRecord (s : State) : Result :=
  .next (match s.head with
    | some { slot := slot, contents := .reserve seat fromCode toCode kind text } =>
      if s.seatGate then
        (s.popHead.takeReservation slot
          { seat := seat, fromCode := fromCode, toCode := toCode, kind := kind, text := text,
            boundFrom := none, boundTo := none }).settle
      else s
    | _ => s)

/-- A VOID record taken: an ACTIVE slot becomes EMPTY and its seat joins the pending set (R45, R48). -/
def State.takeVoid (s : State) (slot : Nat) : State :=
  let old := s.seats.slot slot
  (s.setSeats { s.seats with pool := dropSlot slot s.seats.pool }).joinOldSeat old

/-- VOID (R45). -/
def execVoid (s : State) : Result :=
  .next (match s.head with
    | some { slot := slot, contents := .void } => if s.seatGate then (s.popHead.takeVoid slot).settle else s
    | _ => s)

end Sys2Proof.Machine
end

