-- ==== Sys2Proof/Machine/Messages.lean ====
section
/-! DEFINITION. The meanings of the commands that take a message from the head of the Intake Queue (R8, R9, R15, R18 to R21,
R38, R39, R68 to R71, R156, R180). A message is taken at once, in every progress state. -/

namespace Sys2Proof.Machine

/-! ### Position, stops and departure -/

/-- A POSITION_FIX taken: the setting, the re-derivation in a moving state, POSITION_SET (R21, R33). -/
def State.takePositionFix (s : State) (p : Nat) : State :=
  let old := s.route
  let s := (s.setPosition p).joinChanged old
  (if s.route.progress.moving then s.rederive else s).handPositionSet

/-- POSITION_FIX (R33). -/
def execPositionFix (s : State) : Result :=
  .next (match s.headMessage with
    | some (_, .positionFix p) => (s.popHead.takePositionFix p).settle
    | _ => s)

/-- What a STOP_CALLED comes to (R18). -/
inductive Called where
  | reach (slot : Nat) (jumped : Bool)
  | nothing
  | refuse (why : Reason)
  deriving DecidableEq, Repr

/-- The entry of a slot has a code. -/
def Route.hasCode (r : Route) (slot : Option Nat) (code : Nat) : Bool :=
  (slot.bind r.entry).any fun e => decide (e.code = code)

/-- The lowest slot above the past line whose entry has a code and satisfies a test. -/
def Route.aheadWith (r : Route) (code : Nat) (p : StopEntry → Bool) : Option Nat :=
  (r.entries.find? fun q => decide (r.pastEnd ≤ q.1) && decide (q.2.code = code) && p q.2).map (·.1)

/-- Some valid entry has a code. -/
def Route.knows (r : Route) (code : Nat) : Bool := r.entries.any fun q => decide (q.2.code = code)

/-- The last-missed slot when its entry has a code and is still MISSED (R18). -/
def Route.revertible (r : Route) (code : Nat) : Option Nat :=
  r.lastMissed.bind fun i =>
    if (r.entry i).any fun e => decide (e.code = code) && decide (e.status = .missed) then some i else none

/-- The cases of R18, the first that applies. -/
def Route.called (r : Route) (code : Nat) : Called :=
  if r.progress = .ended then .refuse .state
  else if r.progress = .noRoute ∨ ¬ r.knows code then .refuse .noStop
  else
    match (if r.hasCode r.target code then r.target else none),
        r.aheadWith code (fun e => e.isCall && decide (e.status = .ahead)), r.revertible code with
    | some t, _, _ => .reach t false
    | none, some x, _ => .reach x true
    | none, none, some x => .reach x false
    | none, none, none =>
      if r.hasCode r.current code then .nothing
      else if (r.aheadWith code fun _ => true).isSome then .refuse .state
      else .refuse .past

/-- A STOP_CALLED taken (R18): in STANDING a reached stop first departs from CURRENT, without a state change. -/
def State.takeStopCalled (s : State) (slot code : Nat) : State :=
  match s.route.called code with
  | .refuse why => s.refuseMessage why slot
  | .nothing => s
  | .reach x jumped => (if s.route.progress = .standing then s.leaveCurrent else s).arrive x jumped true

/-- STOP_CALLED (R18). -/
def execStopCalled (s : State) : Result :=
  .next (match s.headMessage with
    | some (slot, .stopCalled code) => (s.popHead.takeStopCalled slot code).settle
    | _ => s)

/-- What follows a change of one stop's service: reselection when it may move the target, ROUTE_CHANGE, strip lines
(DEDUCED, log 18). -/
def State.serviceChanged (s : State) (old : Route) (slot : Nat) : State :=
  (((s.reselect old.target false).handRouteChange false).joinChanged old).joinStrip [slot]

/-- The outcome of a STOP_SKIPPED that finds no AHEAD or TARGET entry (R19): none for one already SKIPPED. -/
def Route.skipRefusal (r : Route) (code : Nat) : Option Reason :=
  if (r.aheadWith code fun e => decide (e.status = .skipped)).isSome then none
  else if (r.aheadWith code fun e => decide (e.status = .notServed) || decide (e.kind = .pass)).isSome then some .state
  else if r.knows code then some .past
  else some .noStop

/-- A STOP_SKIPPED taken (R19). -/
def State.takeStopSkipped (s : State) (slot code : Nat) : State :=
  if s.route.progress = .ended then s.refuseMessage .state slot
  else
    match s.route.aheadWith code fun e => e.isCall && (decide (e.status = .ahead) || decide (e.status = .target)) with
    | some x => (s.setRoute (s.route.mark x .skipped)).serviceChanged s.route x
    | none =>
      match s.route.skipRefusal code with
      | some why => s.refuseMessage why slot
      | none => s

/-- STOP_SKIPPED (R19). -/
def execStopSkipped (s : State) : Result :=
  .next (match s.headMessage with
    | some (slot, .stopSkipped code) => (s.popHead.takeStopSkipped slot code).settle
    | _ => s)

/-- The outcome of a STOP_RESTORED that finds no SKIPPED entry above the past line (R20). -/
def Route.restoreRefusal (r : Route) (code : Nat) : Option Reason :=
  if (r.aheadWith code fun _ => true).isSome then none
  else if r.knows code then some .past
  else some .noStop

/-- A SKIPPED entry found: restored when it lies beyond the position, else refused (R20). -/
def State.restoreStop (s : State) (slot x : Nat) (e : StopEntry) : State :=
  if e.postMm ≤ s.odo.position then s.refuseMessage .past slot
  else
    (s.setRoute (s.route.mark x (if e.servesPortion s.route.portion then .ahead else .notServed))).serviceChanged s.route x

/-- A STOP_RESTORED taken (R20). -/
def State.takeStopRestored (s : State) (slot code : Nat) : State :=
  if s.route.progress = .ended then s.refuseMessage .state slot
  else
    match s.route.aheadWith code fun e => decide (e.status = .skipped) with
    | some x =>
      match s.route.entry x with
      | some e => s.restoreStop slot x e
      | none => s
    | none =>
      match s.route.restoreRefusal code with
      | some why => s.refuseMessage why slot
      | none => s

/-- STOP_RESTORED (R20). -/
def execStopRestored (s : State) : Result :=
  .next (match s.headMessage with
    | some (slot, .stopRestored code) => (s.popHead.takeStopRestored slot code).settle
    | _ => s)

/-- A DEPART taken: a departure in STANDING, refused in every other state (R15). -/
def State.takeDepart (s : State) (slot : Nat) : State :=
  if s.route.progress = .standing then s.departNow else s.refuseMessage .state slot

/-- DEPART (R15). -/
def execDepart (s : State) : Result :=
  .next (match s.headMessage with
    | some (slot, .depart) => (s.popHead.takeDepart slot).settle
    | _ => s)

/-! ### Delay and clock -/

/-- A DELAY taken (R25, R39, R40). -/
def State.takeDelay (s : State) (d : Nat) : State :=
  (s.setRoute { s.route with delay := d }).joinTimes.handDelayChange

/-- DELAY (R39). -/
def execDelay (s : State) : Result :=
  .next (match s.headMessage with
    | some (_, .delay d) => (s.popHead.takeDelay d).settle
    | _ => s)

/-- A CLOCK taken: a minute with a fresh tick count, or unset (R25, R38, R40). -/
def State.takeClock (s : State) (m : Option Nat) : State :=
  (s.setRoute { s.route with clock := m, clockTicks := 0 }).joinTimes.handClockChange

/-- CLOCK (R38). -/
def execClock (s : State) : Result :=
  .next (match s.headMessage with
    | some (_, .clock m) => (s.popHead.takeClock m).settle
    | _ => s)

/-! ### Portion and orientation -/

/-- The status of an entry above the past line under a new portion (R8). -/
def StopEntry.underPortion (e : StopEntry) (portion position : Nat) : Status :=
  if (e.status = .ahead ∨ e.status = .target) ∧ ¬ e.servesPortion portion then .notServed
  else if e.status = .notServed ∧ e.servesPortion portion then
    (if e.kind = .pass ∧ e.postMm ≤ position then .passed else .ahead)
  else e.status

/-- The table under a new portion: entries at or below the past line keep their status (R8). -/
def Route.withPortion (r : Route) (portion position : Nat) : Route :=
  { r.mapStatus fun i e => if r.pastEnd ≤ i then e.underPortion portion position else e.status with portion := portion }

/-- A PORTION_SET taken (R8) (DEDUCED, log 18). -/
def State.takePortionSet (s : State) (slot p : Nat) : State :=
  if s.route.progress = .ended then s.refuseMessage .state slot
  else
    let old := s.route
    let s := s.setRoute (s.route.withPortion p s.odo.position)
    ((s.reselect old.target false).handRouteChange false).joinChanged old

/-- PORTION_SET (R8). -/
def execPortionSet (s : State) : Result :=
  .next (match s.headMessage with
    | some (slot, .portionSet p) => (s.popHead.takePortionSet slot p).settle
    | _ => s)

/-- An ORIENTATION taken: no effect when it names the one held (R9). -/
def State.takeOrientation (s : State) (rev : Bool) : State :=
  if s.route.reversed = rev then s
  else (s.setRoute { s.route with reversed := rev, stripPending := s.allStrip }).handOrientation

/-- ORIENTATION (R9). -/
def execOrientation (s : State) : Result :=
  .next (match s.headMessage with
    | some (_, .orientation rev) => (s.popHead.takeOrientation rev).settle
    | _ => s)

/-! ### Notices -/

/-- The entry that a NOTICE_ADD builds (R68). -/
def State.builtNotice (s : State) (a : NoticeArgs) : Notice :=
  { id := a.id, cls := a.cls, priority := if a.cls = .urgent then 3 else a.priority, text := a.text,
    dwell := if a.dwell = 0 then s.params.dwell else a.dwell, expiry := a.expiry, chime := a.chime, shown := false,
    auto := none }

/-- The eviction candidate: of the coach computer entries that are not URGENT, the oldest of the lowest priority (R69). -/
def evictable : List Notice → Option Notice
  | [] => none
  | e :: r =>
    match evictable r with
    | none => if e.fromCoach && decide (e.cls ≠ .urgent) then some e else none
    | some m => if e.fromCoach && decide (e.cls ≠ .urgent) && decide (e.priority ≤ m.priority) then some e else some m

/-- A new notice on a full queue: the candidate evicted if its priority is strictly lower, else the notice refused; in both
cases NOTICE_DROPPED (R69). -/
def State.addToFull (s : State) (x : Notice) : State :=
  match evictable s.notices.queue with
  | some m =>
    if m.priority < x.priority then ((s.removeNotice m.id).appendNotice x).handCause .noticeDropped .noticeDropped
    else s.handCause .noticeDropped .noticeDropped
  | none => s.handCause .noticeDropped .noticeDropped

/-- A NOTICE_ADD taken (R68 to R70). -/
def State.takeNoticeAdd (s : State) (a : NoticeArgs) : State :=
  let x := s.builtNotice a
  if (s.notices.byId a.id).isSome then s.replaceNotice x
  else if s.notices.hasRoom then s.appendNotice x
  else s.addToFull x

/-- NOTICE_ADD (R68). -/
def execNoticeAdd (s : State) : Result :=
  .next (match s.headMessage with
    | some (_, .noticeAdd a) => (s.popHead.takeNoticeAdd a).settle
    | _ => s)

/-- A NOTICE_CANCEL taken (R71): id 255 refused, a present id removed, an absent one without effect. -/
def State.takeNoticeCancel (s : State) (slot id : Nat) : State :=
  if id = autoId then s.refuseMessage .noNotice slot
  else if (s.notices.byId id).isSome then s.removeNotice id
  else s

/-- NOTICE_CANCEL (R71). -/
def execNoticeCancel (s : State) : Result :=
  .next (match s.headMessage with
    | some (slot, .noticeCancel id) => (s.popHead.takeNoticeCancel slot id).settle
    | _ => s)

/-! ### Journey reset -/

/-- The Route Tracker at a journey reset: portion, orientation, clock and the strip sequence kept (R26). -/
def State.clearRoute (s : State) : State :=
  s.setRoute
    { portion := s.route.portion, reversed := s.route.reversed, clock := s.route.clock, clockTicks := s.route.clockTicks,
      stripSeq := s.route.stripSeq, stripLast := s.route.stripLast, stripPending := s.allStrip }

/-- A JOURNEY_RESET taken: STAGE_CHANGE to NO_ROUTE, then JOURNEY_RESET to every block (R26, R180). -/
def State.takeJourneyReset (s : State) : State := (s.clearRoute.handStage s.route.progress).handJourneyReset

/-- JOURNEY_RESET (R180). -/
def execJourneyReset (s : State) : Result :=
  .next (match s.headMessage with
    | some (_, .journeyReset) => s.popHead.takeJourneyReset.settle
    | _ => s)

end Sys2Proof.Machine
end

