-- ==== Sys2Proof/Machine/Time.lean ====
section
/-! DEFINITION. One tick of the part's clock: every timer moves by one and the events whose timers reach their ends are taken
(R11, R30, R38, R79, R83, R115, R116, R147). `step` takes a tick when no command waits (log 7). -/

namespace Sys2Proof.Machine

/-! ### Every timer moves by one -/

/-- The DOOR filter samples the line: an opposite level counts, the accepted level restarts the count (R11)
(DESIGN CHOICE, log 24). -/
def Odo.sampleDoor (o : Odo) (level : Bool) : Odo :=
  { o with doorCount := if level = o.doorLevel then 0 else o.doorCount + 1 }

/-- The Odometry Unit's timers: the DOOR and WHEEL filters sample their lines in every part state, the window timer moves in
ACTIVE (R11, R28, R30, R41). -/
def State.tickOdo (s : State) : State :=
  let o := { s.odo.sampleDoor s.pins.door with wheelLevel := some s.pins.wheel }
  s.setOdo (if s.active then { o with winTimer := o.winTimer + 1 } else o)

/-- The minute's tick count of a set clock, in ACTIVE (R26, R38) (DEDUCED, log 14). -/
def State.tickClock (s : State) : State :=
  if s.active && s.route.clock.isSome then s.setRoute { s.route with clockTicks := s.route.clockTicks + 1 } else s

/-- The dwell countdown of a SHOWN entry, in ACTIVE, and the chime pulse timer, in every part state (R79, R83, R84). -/
def State.tickNotices (s : State) : State :=
  let n := s.notices
  s.setNotices
    { n with
      dwell := if s.active && s.showing then n.dwell - 1 else n.dwell
      chimeTimer := n.chimeTimer.map (· - 1) }

/-- A latch timer lowered by one (R115). -/
def Latch.tick (l : Latch) : Latch := { l with timer := l.timer - 1 }

/-- The latch timers, while apertures are in force (R115, R119). -/
def State.tickLatches (s : State) : State :=
  if s.mapped then
    s.setWindows
      { s.windows with
        bannerLatch := s.windows.bannerLatch.map Latch.tick
        routeLatch := s.windows.routeLatch.map Latch.tick }
  else s

/-- The lock idle timer, in every part state (R147). -/
def State.tickLock (s : State) : State := s.setArb { s.arb with idle := s.arb.idle.map (· - 1) }

/-- The phase tick count, in ACTIVE, from 511 to 0 (R116). -/
def State.tickPhase (s : State) : State :=
  if s.active then s.setPhase { s.phase with tick := (s.phase.tick + 1) % Config.phasePeriod } else s

/-- Every timer of the part moved by one tick. -/
def State.advance (s : State) : State :=
  s.tickOdo.tickClock.tickNotices.tickLatches.tickLock.tickPhase

/-! ### The events due at a tick -/

/-- The events that a tick can bring. -/
inductive TimeEvent where
  | door
  | windowEnd
  | clock
  | dwell
  | chime
  | latch (w : Win)
  | idle
  | phase
  deriving DecidableEq, Repr

/-- Whether an event is due: its timer stands at its end. -/
def State.due (s : State) (e : TimeEvent) : Bool :=
  match e with
  | .door => decide (Config.doorSamples ≤ s.odo.doorCount)
  | .windowEnd => s.active && decide (Config.windowTicks ≤ s.odo.winTimer)
  | .clock => s.active && s.route.clock.isSome && decide (Config.minuteTicks ≤ s.route.clockTicks)
  | .dwell => s.active && s.showing && decide (s.notices.dwell = 0)
  | .chime => decide (s.notices.chimeTimer = some 0)
  | .latch w => s.mapped && (s.windows.latch w).any fun l => decide (l.timer = 0)
  | .idle => s.arb.locked && decide (s.arb.idle = some 0)
  | .phase => s.active && decide (s.phase.tick % s.params.togglePeriod = 0)

/-- An event taken, by the operation of its command. -/
def State.takeTimeEvent (s : State) (e : TimeEvent) : State :=
  match e with
  | .door => if s.odo.doorLevel then s.takeDoorClosed else s.takeDoorRelease
  | .windowEnd => s.takeWindowEnd
  | .clock => s.takeClockAdvance
  | .dwell => s.takeDwellExpiry
  | .chime => s.endChime
  | .latch w => s.timeoutLatch w
  | .idle => s.breakIdleLock
  | .phase => s.togglePhase

/-- An event that was due at the tick, taken unless an earlier one of the same tick has put it off (R79, R83). -/
def State.takeIfDue (s : State) (e : TimeEvent) : State := if s.due e then s.takeTimeEvent e else s

/-- The events of one tick taken one after another; which of several comes first is a free value (log 5). -/
def State.takeAll (s : State) : Nat → List TimeEvent → State
  | 0, _ => s
  | _ + 1, [] => s
  | n + 1, [e] => (s.takeIfDue e).takeAll n []
  | n + 1, e :: e' :: r =>
    let es := e :: e' :: r
    let i := Config.tickOrder s.free % es.length
    ((s.setFree (s.free + 1)).takeIfDue (es.getD i e)).takeAll n (es.eraseIdx i)

/-- Every event a tick can bring. -/
def TimeEvent.all : List TimeEvent :=
  [.door, .windowEnd, .clock, .dwell, .chime, .latch .banner, .latch .route, .idle, .phase]

/-- The events due, each at most once. -/
def State.dueEvents (s : State) : List TimeEvent := TimeEvent.all.filter s.due

/-- One tick. While RESET is asserted nothing runs (R181). -/
def State.tick (s : State) : State :=
  if s.pins.reset then s else s.advance.takeAll TimeEvent.all.length s.advance.dueEvents

end Sys2Proof.Machine
end

