-- ==== Sys2Proof/Machine/Dispatch.lean ====
section
/-! DEFINITION. The meaning of each command: one arm for each row of spec/opcode_table.json. -/

namespace Sys2Proof.Machine

def exec (i : Instr) (s : State) : Host.Outcome State Fault Refusal :=
  match i with
  | .resetAsserted => Sys2Proof.Machine.execResetAsserted s
  | .resetReleased psel1 psel0 => Sys2Proof.Machine.execResetReleased psel1 psel0 s
  | .doorReleaseAcceptance => Sys2Proof.Machine.execDoorReleaseAcceptance s
  | .doorClosedAcceptance => Sys2Proof.Machine.execDoorClosedAcceptance s
  | .pulse => Sys2Proof.Machine.execPulse s
  | .pulseRejected => Sys2Proof.Machine.execPulseRejected s
  | .windowEnd => Sys2Proof.Machine.execWindowEnd s
  | .clockAdvance => Sys2Proof.Machine.execClockAdvance s
  | .dwellExpiry => Sys2Proof.Machine.execDwellExpiry s
  | .chimePulseEnd => Sys2Proof.Machine.execChimePulseEnd s
  | .remapLatchTimeout w => Sys2Proof.Machine.execRemapLatchTimeout w s
  | .lockIdleExpiry => Sys2Proof.Machine.execLockIdleExpiry s
  | .phaseToggle => Sys2Proof.Machine.execPhaseToggle s
  | .transferArrival t => Sys2Proof.Machine.execTransferArrival t s
  | .coachRead => Sys2Proof.Machine.execCoachRead s
  | .coachWrite => Sys2Proof.Machine.execCoachWrite s
  | .postedWrite => Sys2Proof.Machine.execPostedWrite s
  | .commit => Sys2Proof.Machine.execCommit s
  | .panelRead => Sys2Proof.Machine.execPanelRead s
  | .grant => Sys2Proof.Machine.execGrant s
  | .passingTransferAnswer ok => Sys2Proof.Machine.execPassingTransferAnswer ok s
  | .postAnswer ok => Sys2Proof.Machine.execPostAnswer ok s
  | .commitWriteAnswer ok => Sys2Proof.Machine.execCommitWriteAnswer ok s
  | .commitFetchAnswer ok => Sys2Proof.Machine.execCommitFetchAnswer ok s
  | .profileLineReadAnswer ok => Sys2Proof.Machine.execProfileLineReadAnswer ok s
  | .writebackCompletion ok => Sys2Proof.Machine.execWritebackCompletion ok s
  | .ackWrite => Sys2Proof.Machine.execAckWrite s
  | .profileCommit => Sys2Proof.Machine.execProfileCommit s
  | .routeRecord => Sys2Proof.Machine.execRouteRecord s
  | .routeRecordEmpty => Sys2Proof.Machine.execRouteRecordEmpty s
  | .reservationRecord => Sys2Proof.Machine.execReservationRecord s
  | .void => Sys2Proof.Machine.execVoid s
  | .positionFix => Sys2Proof.Machine.execPositionFix s
  | .stopCalled => Sys2Proof.Machine.execStopCalled s
  | .stopSkipped => Sys2Proof.Machine.execStopSkipped s
  | .stopRestored => Sys2Proof.Machine.execStopRestored s
  | .depart => Sys2Proof.Machine.execDepart s
  | .delay => Sys2Proof.Machine.execDelay s
  | .clock => Sys2Proof.Machine.execClock s
  | .portionSet => Sys2Proof.Machine.execPortionSet s
  | .orientation => Sys2Proof.Machine.execOrientation s
  | .noticeAdd => Sys2Proof.Machine.execNoticeAdd s
  | .noticeCancel => Sys2Proof.Machine.execNoticeCancel s
  | .journeyReset => Sys2Proof.Machine.execJourneyReset s
  | .presentedTransferFinished ok => Sys2Proof.Machine.execPresentedTransferFinished ok s

end Sys2Proof.Machine
end

