-- ==== Sys2Proof/Safety.lean ====
section
/-! DEFINITION. The terms the statements use: the parts of the state that a command leaves alone, and the laws of the manual that
every step keeps. -/

namespace Sys2Proof.Machine

/-! ### Parts of the state, for frames -/

/-- The memory path with the part's control: everything but the journey, the displays and the reports. -/
structure PathPart where
  pins    : Pins
  loader  : Loader
  router  : Router
  arb     : Arbiter
  intake  : Intake
  mem     : Memory
  pending : List Instr
  free    : Nat
  deriving DecidableEq, Repr

/-- The memory path of a state. -/
def State.path (s : State) : PathPart :=
  { pins := s.pins, loader := s.loader, router := s.router, arb := s.arb, intake := s.intake, mem := s.mem,
    pending := s.pending, free := s.free }

/-- What the Route Tracker holds, without the bookkeeping of strip compositions. -/
def Route.facts (r : Route) : Route := { r with stripSeq := 0, stripPending := [], stripLast := [] }

/-- What the Notice Sequencer holds, without the bookkeeping of Banner line compositions. -/
def Notices.facts (n : Notices) : Notices := { n with bannerPending := false, last := {} }

/-- What the Phase Generator holds, without its pending flag. -/
def Phase.facts (p : Phase) : Phase := { p with pending := false }

/-- What the Report Unit holds, without the bookkeeping of its compositions. -/
def Report.facts (r : Report) : Report :=
  { r with
    shown := [], posLast := {}, pendEvent := false, pendCounter := false, pendPosition := false, pendArrival := false,
    seqEvent := 0, seqCounter := 0, seqPosition := 0, seqArrival := 0 }

/-- The journey: what the five blocks that follow it hold, without the bookkeeping of compositions. -/
structure JourneyPart where
  route   : Route
  odo     : Odo
  pool    : List (Nat × Reservation)
  notices : Notices
  phase   : Phase
  deriving DecidableEq, Repr

/-- The journey of a state. -/
def State.journey (s : State) : JourneyPart :=
  { route := s.route.facts, odo := s.odo, pool := s.seats.pool, notices := s.notices.facts, phase := s.phase.facts }

/-- The Report Unit's record of a state. -/
def State.reported (s : State) : Report := s.report.facts

/-! ### Words for what a statement says changed -/

/-- The status that an arrival at slot `x` with next TARGET `new` gives the entry of slot `i` (R14, steps 1, 3, 4 and 6). -/
def arrivalStatus (x : Nat) (new : Option Nat) (i : Nat) (e : StopEntry) : Status :=
  if i = x then .current
  else if e.status = .current then .passed
  else if i < x ∧ e.kind = .pass ∧ e.status = .ahead then .passed
  else if some i = new then .target
  else e.status

/-- The distance between two window distances (R31). -/
def gap (a b : Nat) : Nat := if a ≤ b then b - a else a - b

/-- The estimate of R35 at a window end: the first case that applies, from the remaining distance, the speed, whether it is
settled, the minimum speed and the estimate published before. -/
def estimateAt (rem v : Nat) (settled : Bool) (least : Nat) (old : Estimate) : Estimate :=
  if rem = 0 then { value := 0, valid := true, held := false }
  else if v < least then { old with held := old.valid || old.held }
  else
    let e := min 99 ((rem + (v * 60 - 1)) / (v * 60))
    { value := if settled = false ∧ old.valid = true then min e old.value else e, valid := true, held := false }

/-- The moving state that R16, step 4, leaves: forward by the position and the estimate, never back. -/
def stateForward (old : Progress) (rem pos : Nat) (current : Option StopEntry) (p : Params) (est : Estimate) : Progress :=
  if rem ≤ p.arriveM * 1000 then .arriving
  else if old = .arriving then .arriving
  else if rem ≤ p.approachM * 1000 ∨ (est.valid = true ∧ est.held = false ∧ est.value ≤ p.approachMin) then .approaching
  else if old = .departed ∧ (∃ c, current = some c ∧ pos < c.postMm + p.departM * 1000) then .departed
  else if old = .departed then .running
  else old

/-- A counter of a list raised by one unless it stands at 65535 (R161). -/
def raised (c : Counter) (cs : List Nat) : List Nat :=
  if cs.getD c.num 0 < 65535 then cs.set c.num (cs.getD c.num 0 + 1) else cs

/-- The reports of a state with a factor set (R160). -/
def Report.withFactor (r : Report) (f : Factor) : Report := { r with factors := r.factors ||| f.bit }

/-- The reports of a state with a counter raised (R161). -/
def Report.withCount (r : Report) (c : Counter) : Report := { r with counters := raised c r.counters }

/-- The reports of a state with BAD_RECORD taken (R160, R161, R165). -/
def Report.withBad (r : Report) (why : Reason) (k : RecKind) (slot : Nat) : Report :=
  { (r.withFactor .badRecord).withCount .badRecord with lastBad := some (why, k, slot) }

/-- The reports of a state with a stop reached on the Arrival line (R170), `len` the REPORT length: nothing without the line,
ARRIVAL_OVERRUN set and counted while it is FRESH, and otherwise the arrival recorded as FRESH. -/
def Report.withArrival (r : Report) (len : Nat) (e : StopEntry) (clock : Option Nat) (posM : Nat) : Report :=
  if len ≤ 3 then r
  else if r.arrival.fresh then (r.withFactor .arrivalOverrun).withCount .arrivalOverrun
  else
    { r with
      arrival :=
        { fresh := true, stop := e.code, clock := clock, posM := posM
          lateness := match clock, e.arr with
            | some c, some a => some (((c : Int) - a + 720) % 1440 - 720)
            | _, _ => none } }

/-- The reports of a state with the copies of WINDOW_END or POSITION_SET taken (R168). -/
def Report.withPosition (r : Report) (o : Odo) : Report :=
  { r with posM := o.position / 1000, repSpeed := o.repSpeed, settled := o.settled }

/-- What a stop entry holds beside its status. -/
def StopEntry.plan (e : StopEntry) : StopEntry := { e with status := .ahead }

/-- The Route Table without its statuses. -/
def Route.plan (r : Route) : List (Option StopEntry) := r.table.map fun e => e.map StopEntry.plan

/-- What the Route Tracker holds beside the table, the progress state and the marks that follow it. -/
def Route.settings (r : Route) : Nat × Bool × Nat × Option Nat := (r.portion, r.reversed, r.delay, r.clock)

/-- What the Odometry Unit holds beside the estimate. -/
def Odo.figures (o : Odo) : Odo := { o with est := {} }

/-- What the Router's window state holds beside the banner window's current target. -/
def Windows.rest (x : Windows) : Windows := { x with bannerTarget := none }

/-- The lock state after a coach computer transfer has been taken up and answered without the memory port (R144, R145): a
locked one begins or goes on with a sequence and sets the idle timer, an unlocked one ends it. -/
def Arbiter.afterAnswer (a : Arbiter) (lock : Bool) : Arbiter :=
  if lock then { a with locked := true, count := if a.locked then a.count else 0, idle := some 10, fetchLate := false }
  else if a.locked then { a with locked := false, count := 0, idle := none, fetchLate := false }
  else { a with fetchLate := false }

/-- The lock state after a coach computer transfer has been taken up and asks for the memory port (R144, R146): a locked one
begins or goes on with a sequence, the timer stops, and a sequence with 16 grants made ends by its cap. -/
def Arbiter.afterAsking (a : Arbiter) (lock : Bool) : Arbiter :=
  if a.locked = true ∧ 16 ≤ a.count then { a with locked := false, count := 0, idle := none, fetchLate := false }
  else if a.locked then { a with idle := none, fetchLate := false }
  else if lock then { a with locked := true, count := 0, idle := none, fetchLate := false }
  else { a with fetchLate := false }

/-- The record after a request of that kind: LOCK_BROKEN set and counted when the cap ends a sequence at a locked request
(R146). -/
def Report.afterAsking (r : Report) (a : Arbiter) (lock : Bool) : Report :=
  if a.locked = true ∧ 16 ≤ a.count ∧ lock = true then (r.withFactor .lockBroken).withCount .lockBroken else r

/-- A word of a line as a read finds it at its grant: the newest data of the entry that covers it, otherwise memory's (R99,
R101); `overlay` says whether the read is compared with the Line Store. -/
def State.wordNow (s : State) (overlay : Bool) (line i : Nat) : Word :=
  match if overlay then heldEntry s.store line else none with
  | some e => if i < e.width then e.newest.getD i 0 else s.mem.word line i
  | none => s.mem.word line i

/-- The words that a read finds at its grant. -/
def State.wordsNow (s : State) (overlay : Bool) (r : MemReq) : List Word :=
  (List.range r.count).map fun i => s.wordNow overlay r.line (r.first + i)

/-- What a coach computer transfer captures at its grant: a read its words, a write none. -/
def State.captured (s : State) (c : CoachTx) : List Word :=
  match c.kind with
  | .read _ o => s.wordsNow o c.req
  | .write => []
  | .ack => []
  | .profile => []
  | .commit => []

/-- A request beside the part fetch stands (R139, R140). -/
def State.OtherStands (s : State) : Prop :=
  s.panelStands ≠ none ∨ s.coachStands ≠ none ∨ s.router.posts ≠ [] ∨ s.storeStands ≠ none

/-- The part fetch waits while another request that stands is granted: it came after the answer that freed the port (R139). -/
def State.FetchWaits (s : State) : Prop := s.arb.fetchLate = true ∧ s.OtherStands

/-- The memory request of the head post (R133). -/
def Post.req (p : Post) : MemReq :=
  { write := true, line := p.line, first := p.first, count := p.words.length, words := p.words }

/-- No composer has anything pending: nothing waits to be offered to the Line Store. -/
def State.quiet (s : State) : Prop :=
  s.phase.pending = false ∧ s.report.pendEvent = false ∧ s.report.pendCounter = false ∧ s.report.pendPosition = false
    ∧ s.report.pendArrival = false ∧ s.notices.bannerPending = false ∧ s.route.stripPending = [] ∧ s.seats.pending = []

/-- The status that a target selection with result `new` leaves of a status that stood before it, for an entry above the past
line (R7). -/
def afterSelect (new : Option Nat) (i : Nat) (st : Status) : Status :=
  if some i = new then .target else if st = .target then .ahead else st

/-- The status of an entry after the timing points of a window end (R16, step 1): an AHEAD PASS entry above the past line whose
post the position has reached is PASSED. -/
def timedStatus (pastEnd position i : Nat) (e : StopEntry) : Status :=
  if pastEnd ≤ i ∧ e.kind = .pass ∧ e.status = .ahead ∧ e.post * 1000 ≤ position then .passed else e.status

/-- The status of an entry after STOP_CALLED has reached slot `x`, with past line end `pastEnd` before it and next TARGET `new`
after it (R14, R18, R21): `jumped` says that stops below `x` were jumped over. -/
def calledStatus (x : Nat) (jumped : Bool) (pastEnd : Nat) (new : Option Nat) (i : Nat) (e : StopEntry) : Status :=
  if i = x then .current
  else if e.status = .current then .passed
  else if jumped = true ∧ pastEnd ≤ i ∧ i < x ∧ e.kind = .call ∧ (e.status = .ahead ∨ e.status = .target) then .missed
  else if e.kind = .pass ∧ (e.status = .ahead ∨ e.status = .passed) then (if i < x then .passed else .ahead)
  else afterSelect new i e.status

/-- The status of an entry under a new portion, before the target is reselected (R8). -/
def portionStatus (pastEnd portion position i : Nat) (e : StopEntry) : Status :=
  if i < pastEnd then e.status
  else if (e.status = .ahead ∨ e.status = .target) ∧ e.mask.getLsbD portion = false then .notServed
  else if e.status = .notServed ∧ e.mask.getLsbD portion = true then
    (if e.kind = .pass ∧ e.post * 1000 ≤ position then .passed else .ahead)
  else e.status

/-- A panel read through window `w` that asks for a line at its take-up in `s`, or waits for `n` posts before it asks (R114, R126,
R134): the answer to the last offset frees the latch. -/
def PanelTx.askingAt (p : PanelTx) (s : State) (w : Win) (line n : Nat) : PanelTx :=
  { t := p.t, moment := .waiting, posts := n
    req := { write := p.t.write, line := line, first := p.t.first, count := p.t.count, words := p.t.words }
    overlay := true
    frees := if p.t.line + 1 = (s.windowAperture w).base + (s.windowAperture w).len then some w else none }

/-- The TARGET is the lowest-slot CALL entry above the past line that is AHEAD (R7). -/
def Route.TargetIsNext (r : Route) : Prop :=
  (∀ x, r.target = some x → r.pastEnd ≤ x)
  ∧ ∀ z e, r.pastEnd ≤ z → r.entry z = some e → e.kind = .call → e.status = .ahead → ∃ x, r.target = some x ∧ x < z

/-- What a target selection outside an arrival comes to (R7, R17, R36): the TARGET is the next stop; a changed one (`again` says
that its own entry was replaced) invalidates the estimate and re-derives a moving state; the odometer's figures stand. -/
structure State.Reselected (s t : State) (again : Bool) : Prop where
  next : t.route.TargetIsNext
  changed : (t.route.target ≠ s.route.target ∨ again = true) →
    t.odo.est = {} ∧ (s.route.progress.moving = true → t.route.progress = t.derive)
  same : t.route.target = s.route.target → again = false → s.route.progress.moving = true →
    t.route.progress = s.route.progress ∧ t.odo.est = s.odo.est
  figures : t.odo.figures = s.odo.figures

/-- A message is refused (R3): its record leaves the queue, BAD_RECORD with the reason and the message slot is taken, and nothing
else changes. -/
def State.Refuses (s : State) (c : Instr) (why : Reason) (n : Nat) : Prop :=
  ∃ t, exec c s = .next t ∧ t.path = s.popHead.path ∧ t.windows = s.windows ∧ t.journey = s.journey
    ∧ t.reported = s.reported.withBad why .message n

/-- A message has no effect: its record leaves the queue, and nothing else changes. -/
def State.TakesIdly (s : State) (c : Instr) : Prop :=
  ∃ t, exec c s = .next t ∧ t.path = s.popHead.path ∧ t.windows = s.windows ∧ t.journey = s.journey
    ∧ t.reported = s.reported

/-- A notice without its QUEUED or SHOWN state. -/
def Notice.content (e : Notice) : Notice := { e with shown := false }

/-- The queue in the order in which a selection looks through it (R77): from the entry after the rotation mark to the tail,
then from the head, the mark's own entry last; from the head when the mark is the front. -/
def rotation (mark : Option Nat) (q : List Notice) : List Notice :=
  match mark with
  | none => q
  | some id =>
    (q.dropWhile fun e => decide (e.id ≠ id)).drop 1 ++ (q.takeWhile fun e => decide (e.id ≠ id))
      ++ q.filter fun e => decide (e.id = id)

/-- The entry that a selection takes: the first of the highest priority in that order (R77). -/
def selected (mark : Option Nat) (q : List Notice) : Option Notice :=
  (rotation mark q).find? fun e => decide (e.priority = topPriority q)

/-- The id of the entry that a selection takes (R77). -/
def selectedId (mark : Option Nat) (q : List Notice) : Option Nat := (selected mark q).map (·.id)

/-- The rotation mark after an entry has left the queue: a mark that names it passes to the entry before it (R67). -/
def markWithout (mark : Option Nat) (before : List Notice) (e : Notice) : Option Nat :=
  if mark = some e.id then before.getLast?.map (·.id) else mark

/-- A showing that ends normally uses the entry up (R79). -/
def Notice.usedUp (e : Notice) : Bool :=
  match e.expiry with
  | .showCount n => decide (n ≤ 1)
  | .untilCancel => false
  | .untilDepart _ => false

/-- What is SHOWN and what goes with it (R66, R67, R76, R80, R83): the id of the SHOWN entry, the rotation mark, the dwell countdown,
the notice sequence number, the chime timer and the banner window target. -/
structure Showing where
  id     : Option Nat
  mark   : Option Nat
  dwell  : Nat
  seq    : Nat
  chime  : Option Nat
  target : Option Nat
  deriving DecidableEq, Repr

/-- The showing of a state. -/
def State.shows (s : State) : Showing :=
  { id := s.notices.shownEntry.map (·.id), mark := s.notices.mark, dwell := s.notices.dwell, seq := s.notices.seq,
    chime := s.notices.chimeTimer, target := s.windows.bannerTarget }

/-- The banner window target that a text block gives: TEXT base + 8 × b for a block below the number of text blocks, else none
(R80). -/
def State.blockLine (s : State) (b : Nat) : Option Nat :=
  if b < s.router.map.text.len / 8 then some (s.router.map.text.base + 8 * b) else none

/-- A showing start of an entry under the profile and the map of `s`, in the steps of R76. -/
def Showing.start (x : Showing) (s : State) (e : Notice) : Showing :=
  { id := some e.id, mark := some e.id, dwell := e.dwell, seq := (x.seq + 1) % 65536
    chime := if e.chime = true ∧ x.chime = none then some s.params.chimeLen else x.chime
    target := s.blockLine e.text }

/-- A showing that ends with nothing selected: the countdown stops and the banner has no target (R78, R80). -/
def Showing.ended (x : Showing) : Showing := if x.id = none then x else { x with id := none, dwell := 0, target := none }

/-- A selection among the entries `q`: a showing start for the entry it takes, and nothing SHOWN without one (R77). -/
def Showing.select (x : Showing) (s : State) (q : List Notice) : Showing :=
  match selected x.mark q with
  | some e => x.start s e
  | none => x.ended

/-- The rotation check after the queue has become `q` (R78): in NO_ROUTE and ENDED a showing ends; an entry SHOWN before that is
still there and has the highest priority keeps the banner, its showing untouched; otherwise a selection is made. -/
def Showing.check (x : Showing) (s : State) (q : List Notice) : Showing :=
  if s.route.progress.blank then x.ended
  else match q.find? fun e => decide (some e.id = x.id) with
    | some e => if topPriority q ≤ e.priority then x else x.select s q
    | none => x.select s q

/-- The AUTO entry (R66), without its QUEUED or SHOWN state. -/
def State.autoNow (s : State) : Option Notice := (s.notices.queue.find? fun e => decide (e.id = 255)).map Notice.content

/-- The coach computer's entries in queue order, without their QUEUED or SHOWN states. -/
def State.coachNotices (s : State) : List Notice := (s.notices.queue.filter Notice.fromCoach).map Notice.content

/-- The AUTO content of a stage tag and a subject slot (R73). -/
def State.autoMade (s : State) (st : Stage) (slot : Nat) : Notice :=
  { id := 255, cls := .auto, priority := 2
    text := min 255 (((s.route.entry slot).map (·.textBase)).getD 0 + (match st with
      | .departed => 0
      | .approaching => 1
      | .arriving => 2
      | .standing => 3))
    dwell := s.params.dwell, expiry := .untilCancel
    chime := (match st with
      | .departed => s.params.chimeDeparted
      | .approaching => s.params.chimeApproach
      | .arriving => s.params.chimeArriving
      | .standing => s.params.chimeStanding)
    shown := false, auto := some (st, slot) }

/-- The stage tag and the subject that a progress state gives the AUTO entry; none where it is left as it is (R74). -/
def Route.autoStage (r : Route) : Option (Stage × Nat) :=
  match r.progress with
  | .departed => r.target.map fun i => (.departed, i)
  | .running => r.target.map fun i => (.departed, i)
  | .approaching => r.target.map fun i => (.approaching, i)
  | .arriving => r.target.map fun i => (.arriving, i)
  | .standing => r.current.map fun i => (.standing, i)
  | .halted => none
  | .preJourney => none
  | .noRoute => none
  | .ended => none

/-- The AUTO entry after a STAGE_CHANGE to the state as it stands (R74): removed in NO_ROUTE and ENDED; created, or replaced unless
it has that stage tag and subject already. -/
def State.autoAtStage (t : State) (old : Option Notice) : Option Notice :=
  if t.route.progress.blank then none
  else match t.route.autoStage with
    | none => old
    | some (st, i) => if old.bind (·.auto) = some (st, i) then old else some (t.autoMade st i)

/-- The AUTO entry after a TARGET_CHANGE to the TARGET as it stands (R75): refreshed in a moving stage, its subject and its text
block those of the new TARGET. -/
def State.autoAtTarget (t : State) (old : Option Notice) : Option Notice :=
  match old, t.route.target with
  | some e, some x =>
    match e.auto with
    | some (.standing, _) => old
    | some (st, _) => some { e with auto := some (st, x), text := (t.autoMade st x).text }
    | none => old
  | _, _ => old

/-- The route window base (R110): from the CURRENT slot c that the Router holds, −1 without one, the slot base is
min(max(0, c − 2), 36); under REVERSED the window base is 36 less the slot base. -/
def Windows.routeBase (x : Windows) : Nat :=
  if x.reversed then 36 - min (x.current.elim 0 (· - 2)) 36 else min (x.current.elim 0 (· - 2)) 36

/-- The current target of a window: the banner's as last handed (R109); for the route window ROUTE_STRIP base + window base while
the profile has a ROUTE_STRIP (R111). -/
def State.targetOf (s : State) (w : Win) : Option Nat :=
  match w with
  | .banner => s.windows.bannerTarget
  | .route =>
    if s.router.map.routeStrip.len = 0 then none else some (s.router.map.routeStrip.base + s.windows.routeBase)

/-- A CALL entry at slot `i` carries the code (R44). -/
def Route.CallAt (r : Route) (code i : Nat) : Prop := ∃ e, r.entry i = some e ∧ e.kind = .call ∧ e.code = code

/-- A code is bound to slot `i` in the order of R3 (R44): the lowest CALL entry above the past line that carries it, or, failing that,
the highest at or below the past line. -/
def Route.BindsTo (r : Route) (code i : Nat) : Prop :=
  r.CallAt code i
  ∧ (r.pastEnd ≤ i → ∀ j, r.pastEnd ≤ j → j < i → ¬ r.CallAt code j)
  ∧ (i < r.pastEnd → ∀ j, i < j → ¬ r.CallAt code j)

/-- The entry of slot `i` is a served stop (R2, R50): a CALL entry that is not SKIPPED, MISSED or NOT_SERVED. -/
def Route.Serves (r : Route) (i : Nat) : Prop :=
  ∃ e, r.entry i = some e ∧ e.kind = .call ∧ e.status ≠ .skipped ∧ e.status ≠ .missed ∧ e.status ≠ .notServed

/-- One bound to-slot sorts before another: an unbound one sorts after every slot (R46). -/
def toBefore (a b : Option Nat) : Prop :=
  match a, b with
  | some x, some y => x < y
  | some _, none => True
  | none, _ => False

/-- The order of a seat's list among bound reservations (R46): by bound from-slot, bound to-slot and reservation slot. -/
def Leg.InOrder (a b : Leg) : Prop :=
  ∃ f g, a.res.boundFrom = some f ∧ b.res.boundFrom = some g
    ∧ (f < g ∨ (f = g ∧ (toBefore a.res.boundTo b.res.boundTo ∨ (a.res.boundTo = b.res.boundTo ∧ a.slot ≤ b.slot))))

/-- The first of a list with a property. -/
def FirstOf {α : Type} (ls : List α) (p : α → Prop) (l : α) : Prop :=
  ∃ before after, ls = before ++ l :: after ∧ p l ∧ ∀ b ∈ before, ¬ p b

/-- The label text of a reservation as a text reference, or none (R54). -/
def Reservation.labelText (x : Reservation) : TextRef := x.text.elim .none .label

/-- The text base of a slot's entry as a text reference (R54). -/
def Route.stopText (r : Route) (i : Nat) : TextRef := (r.entry i).elim .none fun e => .stop e.textBase

/-- The Reservation Pool after a command that may end the journey (R56): at a STAGE_CHANGE to ENDED exactly the reservations leave
whose mapped to-slot is at or below the CURRENT slot, or the past line without one; otherwise it stands. -/
def State.PoolFollows (s t : State) : Prop :=
  t.seats.pool =
    if t.route.progress = .ended ∧ s.route.progress ≠ .ended then
      s.seats.pool.filter fun q => (q.2.mappedTo t.route).all fun m =>
        match t.route.current with
        | some c => decide (c < m)
        | none => decide (t.route.pastEnd ≤ m)
    else s.seats.pool

/-- The phase tick count, the plane and the blink state stand (R116). -/
def State.PhaseStands (s t : State) : Prop :=
  t.phase.tick = s.phase.tick ∧ t.phase.plane = s.phase.plane ∧ t.phase.blink = s.phase.blink

/-- The Phase Generator at a command without a toggle (R116, R117): count, plane and blink state stand; at a STAGE_CHANGE (`staged`)
blank-all follows the new progress state, and the sequence advances by one exactly when blank-all changes. -/
def State.PhaseFollows (s t : State) (staged : Prop) : Prop :=
  s.PhaseStands t
  ∧ (staged → t.phase.blankAll = t.route.progress.blank) ∧ (¬ staged → t.phase.blankAll = s.phase.blankAll)
  ∧ (t.phase.blankAll = s.phase.blankAll → t.phase.seq = s.phase.seq)
  ∧ (t.phase.blankAll ≠ s.phase.blankAll → t.phase.seq = (s.phase.seq + 1) % 65536)

/-- The state with every running timer moved by one tick: the samples of DOOR and WHEEL (R11, R28), the window timer, the
minute's ticks of a set clock (R38; in ACTIVE alone, DEDUCED, log 14) and the phase tick count in ACTIVE (R30, R116), the dwell of a SHOWN entry in ACTIVE
(R79), the chime pulse (R83), the latch timers while apertures are in force (R115) and the lock idle timer (R147). -/
def State.oneTick (s : State) : State :=
  { s with
    odo :=
      { s.odo with
        doorCount := if s.pins.door = s.odo.doorLevel then 0 else s.odo.doorCount + 1
        wheelLevel := some s.pins.wheel
        winTimer := if s.active = true then s.odo.winTimer + 1 else s.odo.winTimer }
    route :=
      { s.route with
        clockTicks := if s.active = true ∧ s.route.clock ≠ none then s.route.clockTicks + 1 else s.route.clockTicks }
    notices :=
      { s.notices with
        dwell := if s.active = true ∧ s.notices.shownEntry ≠ none then s.notices.dwell - 1 else s.notices.dwell
        chimeTimer := s.notices.chimeTimer.map (· - 1) }
    windows :=
      if s.mapped = true then
        { s.windows with
          bannerLatch := s.windows.bannerLatch.map fun l => { l with timer := l.timer - 1 }
          routeLatch := s.windows.routeLatch.map fun l => { l with timer := l.timer - 1 } }
      else s.windows
    arb := { s.arb with idle := s.arb.idle.map (· - 1) }
    phase := { s.phase with tick := if s.active = true then (s.phase.tick + 1) % 512 else s.phase.tick } }

/-- The command whose event a timer at its end makes due (R11, R30, R38, R79, R83, R115, R116, R147). -/
def State.Due (s : State) (c : Instr) : Prop :=
  match c with
  | .doorReleaseAcceptance => s.odo.doorLevel = false ∧ 5 ≤ s.odo.doorCount
  | .doorClosedAcceptance => s.odo.doorLevel = true ∧ 5 ≤ s.odo.doorCount
  | .windowEnd => s.active = true ∧ 100 ≤ s.odo.winTimer
  | .clockAdvance => s.active = true ∧ s.route.clock ≠ none ∧ 6000 ≤ s.route.clockTicks
  | .dwellExpiry => s.active = true ∧ s.notices.shownEntry ≠ none ∧ s.notices.dwell = 0
  | .chimePulseEnd => s.notices.chimeTimer = some 0
  | .remapLatchTimeout w => s.mapped = true ∧ ∃ l, s.windows.latch w = some l ∧ l.timer = 0
  | .lockIdleExpiry => s.arb.locked = true ∧ s.arb.idle = some 0
  | .phaseToggle =>
    s.active = true ∧ (s.phase.tick % 2 ^ s.params.planeExp = 0 ∨ s.phase.tick % 2 ^ s.params.blinkExp = 0)
  | _ => False

/-! ### What the checks of records and of the profile examine -/

/-- The outcome of a check by its table, rows of a fault and its reason in their order: the first fault found decides, and
without one the check passes with contents of which `held` holds (R152). -/
def CheckedBy {α : Type} (rows : List (Bool × Reason)) (held : α → Prop) (out : Checked α) : Prop :=
  match rows.find? (·.1) with
  | some row => out = .error row.2
  | none => ∃ x, out = .ok x ∧ held x

/-- A value held at the nearer bound of its range. -/
def heldAt (lo hi v : Nat) : Nat := max lo (min hi v)

/-- A numeric field is at fault outside its range under STRICT; LENIENT holds it (R152). -/
def outOfRange (lenient : Bool) (lo hi v : Nat) : Bool := !lenient && decide (v < lo ∨ hi < v)

/-- A minute field, 0xFFFF standing for not given (R153, R155). -/
def minuteHeld (v : Nat) : Option Nat := if v = 0xFFFF then none else some (heldAt 0 1439 v)

/-- The kind of a record or message: word 7, bits 0 to 7 (R184). -/
def kindField (ws : List Word) : Nat := field ws 7 0 8

/-- The table of R153, at the places of R184. -/
def routeRows (lenient : Bool) (ws : List Word) : List (Bool × Reason) :=
  if kindField ws = 3 then []
  else
    [(decide (kindField ws ≠ 1 ∧ kindField ws ≠ 2), .kind),
      (decide (field ws 0 0 16 = 0), .range),
      (outOfRange lenient 0 4000000 (field ws 1 0 32), .range),
      (decide (field ws 2 0 16 ≠ 0xFFFF) && outOfRange lenient 0 1439 (field ws 2 0 16), .range),
      (decide (field ws 2 16 16 ≠ 0xFFFF) && outOfRange lenient 0 1439 (field ws 2 16 16), .range),
      (decide (3 < field ws 3 0 8), .kind),
      (decide (field ws 3 8 4 = 0), .range),
      (decide (255 < field ws 0 16 16), .range)]

/-- The contents of a route record that passes (R152, R153, R184). -/
def routeHeld (ws : List Word) (x : Contents) : Prop :=
  if kindField ws = 3 then x = .routeEmpty
  else
    ∃ side : Side, side.code = field ws 3 0 8
      ∧ x = .route
          { kind := if kindField ws = 1 then .call else .pass
            code := field ws 0 0 16, post := heldAt 0 4000000 (field ws 1 0 32), arr := minuteHeld (field ws 2 0 16)
            dep := minuteHeld (field ws 2 16 16), side := side, mask := BitVec.ofNat 4 (field ws 3 8 4)
            textBase := field ws 0 16 16 }

/-- The table of R43 and R154, at the places of R184: VOID for its kind alone. -/
def reservationRows (seatCount : Nat) (ws : List Word) : List (Bool × Reason) :=
  if kindField ws = 5 then []
  else
    [(decide (kindField ws = 0 ∨ 5 < kindField ws), .kind),
      (decide (seatCount ≤ field ws 0 0 16), .range),
      (decide (field ws 1 0 16 = 0), .range),
      (decide (field ws 1 16 16 = 0), .range),
      (decide (field ws 1 0 16 = field ws 1 16 16), .order),
      (decide (255 < field ws 0 16 16 ∧ field ws 0 16 16 ≠ 0xFFFF), .range)]

/-- The contents of a reservation record that passes (R154, R184). -/
def reservationHeld (ws : List Word) (x : Contents) : Prop :=
  if kindField ws = 5 then x = .void
  else
    ∃ kind : ResKind, resKindCode (some kind) = kindField ws
      ∧ x = .reserve (field ws 0 0 16) (field ws 1 0 16) (field ws 1 16 16) kind
          (if field ws 0 16 16 = 0xFFFF then none else some (field ws 0 16 16))

/-- The table of R155 for the arguments of a NOTICE_ADD. -/
def noticeRows (lenient : Bool) (ws : List Word) : List (Bool × Reason) :=
  [(decide (field ws 0 0 8 = 255), .noNotice),
    (decide (field ws 0 8 8 = 0 ∨ 4 < field ws 0 8 8), .kind),
    (outOfRange lenient 0 3 (field ws 0 16 8), .range),
    (decide (255 < field ws 1 0 16), .range),
    (decide (field ws 1 16 16 ≠ 0) && outOfRange lenient 100 6000 (field ws 1 16 16), .range),
    (decide (field ws 2 0 8 = 0 ∨ 3 < field ws 2 0 8), .kind),
    (decide (field ws 2 0 8 = 2 ∧ field ws 3 0 16 = 0), .range),
    (decide (field ws 2 0 8 = 3) && outOfRange lenient 1 15 (field ws 2 16 8), .range)]

/-- The table of R155, by message kind, at the places of R184. -/
def messageRows (lenient : Bool) (ws : List Word) : List (Bool × Reason) :=
  (decide (kindField ws = 0 ∨ 12 < kindField ws), .kind)
    :: (if kindField ws = 1 then [(outOfRange lenient 0 4000000 (field ws 0 0 32), .range)]
      else if kindField ws = 2 ∨ kindField ws = 3 ∨ kindField ws = 4 then [(decide (field ws 0 0 16 = 0), .range)]
      else if kindField ws = 6 then [(outOfRange lenient 0 999 (field ws 0 0 16), .range)]
      else if kindField ws = 7 then
        [(decide (field ws 0 0 16 ≠ 0xFFFF) && outOfRange lenient 0 1439 (field ws 0 0 16), .range)]
      else if kindField ws = 8 then [(decide (3 < field ws 0 0 8), .range)]
      else if kindField ws = 9 then [(decide (1 < field ws 0 0 8), .kind)]
      else if kindField ws = 10 then noticeRows lenient ws
      else [])

/-- The arguments of a NOTICE_ADD that passes (R152, R155, R184). -/
def noticeHeld (ws : List Word) (a : NoticeArgs) : Prop :=
  a.id = field ws 0 0 8 ∧ classCode (some a.cls) = field ws 0 8 8 ∧ a.priority = heldAt 0 3 (field ws 0 16 8)
    ∧ a.text = field ws 1 0 16 ∧ a.dwell = (if field ws 1 16 16 = 0 then 0 else heldAt 100 6000 (field ws 1 16 16))
    ∧ a.expiry =
        (if field ws 2 0 8 = 1 then .untilCancel
        else if field ws 2 0 8 = 2 then .untilDepart (field ws 3 0 16)
        else .showCount (heldAt 1 15 (field ws 2 16 8)))
    ∧ a.chime = decide (field ws 2 8 1 = 1)

/-- The message of a record that passes (R152, R155, R184). -/
def messageHeld (ws : List Word) (x : Contents) : Prop :=
  ∃ m, x = .message m
    ∧ (kindField ws = 1 → m = .positionFix (heldAt 0 4000000 (field ws 0 0 32)))
    ∧ (kindField ws = 2 → m = .stopCalled (field ws 0 0 16))
    ∧ (kindField ws = 3 → m = .stopSkipped (field ws 0 0 16))
    ∧ (kindField ws = 4 → m = .stopRestored (field ws 0 0 16))
    ∧ (kindField ws = 5 → m = .depart)
    ∧ (kindField ws = 6 → m = .delay (heldAt 0 999 (field ws 0 0 16)))
    ∧ (kindField ws = 7 → m = .clock (minuteHeld (field ws 0 0 16)))
    ∧ (kindField ws = 8 → m = .portionSet (field ws 0 0 8))
    ∧ (kindField ws = 9 → m = .orientation (decide (field ws 0 0 8 = 1)))
    ∧ (kindField ws = 10 → ∃ a, m = .noticeAdd a ∧ noticeHeld ws a)
    ∧ (kindField ws = 11 → m = .noticeCancel (field ws 0 0 8))
    ∧ (kindField ws = 12 → m = .journeyReset)

/-- The base line of the aperture of place `i` in the kind order of R183. -/
def blockBase (ws : List Word) (i : Nat) : Nat := field ws (2 + i) 0 21

/-- The length of the aperture of place `i`, held at the longest of its kind (R175, R183). -/
def blockLen (ws : List Word) (i : Nat) : Nat :=
  min ([48, 512, 16, 1, 6, 128, 48, 8, 12, 2048].getD i 0) (field ws (12 + i / 2) (16 * (i % 2)) 16)

/-- A line belongs to the aperture of place `i`; one of length 0 holds no line. -/
def inBlock (ws : List Word) (i l : Nat) : Prop := blockBase ws i ≤ l ∧ l < blockBase ws i + blockLen ws i

/-- The eight conditions of R175 on the words fetched from the profile base. -/
def ProfileSound (base : Nat) (ws : List Word) : Prop :=
  field ws 0 0 32 = 0x54505A31
  ∧ field ws 1 0 8 = 1
  ∧ (ws.map fun w => w.toNat % 65536 + w.toNat / 65536).sum % 65536 = 0
  ∧ (0 < blockLen ws 0 ∧ 0 < blockLen ws 2 ∧ 0 < blockLen ws 3 ∧ 0 < blockLen ws 4)
  ∧ (∀ i l, i < 10 → inBlock ws i l → l ≤ 2097151)
  ∧ (∀ i j l, i < j → j < 10 → inBlock ws i l → ¬ inBlock ws j l)
  ∧ (∀ i l, i < 10 → inBlock ws i l → ¬ (base ≤ l ∧ l < base + 4))
  ∧ (1 ≤ field ws 1 8 8 ∧ field ws 1 8 8 ≤ 128)

/-- A numeric parameter at load: zero takes the default, another value is held in its range (R27, R176). -/
def loaded (lo hi dflt v : Nat) : Nat := if v = 0 then dflt else heldAt lo hi v

/-- A stage tag of the chime-stage set: bit `i` when bit 4 says that a set is given, otherwise the default (R183). -/
def stageChosen (ws : List Word) (i : Nat) (dflt : Bool) : Bool :=
  if field ws 22 28 1 = 1 then decide (field ws 22 (24 + i) 1 = 1) else dflt

/-- The parameters that the words of a Profile Block hold, by the tables of R27, R176 and R183; word n of line m is word 8m + n. -/
def blockParams (ws : List Word) : Params :=
  { pulseUm := loaded 1000 200000 157080 (field ws 17 0 24)
    minSpeed := loaded 500 5000 1000 (field ws 18 0 16)
    hysteresis := loaded 100 2000 300 (field ws 18 16 16)
    approachM := loaded 500 20000 3000 (field ws 19 0 16)
    arriveM := loaded 100 2000 400 (field ws 19 16 16)
    departM := loaded 100 5000 800 (field ws 20 0 16)
    passMargin := loaded 500 5000 1500 (field ws 20 16 16)
    fixTol := loaded 10 1000 200 (field ws 21 0 16)
    approachMin := loaded 1 15 3 (field ws 21 16 8)
    noise := [0, 1, 2, 4].getD (field ws 21 24 2) 0
    falling := decide (field ws 21 26 1 = 1)
    stableWindows := [4, 2, 8, 16].getD (field ws 21 28 2) 4
    dwell := loaded 100 6000 500 (field ws 22 0 16)
    chimeLen := loaded 1 255 50 (field ws 22 16 8)
    chimeDeparted := stageChosen ws 0 false
    chimeApproach := stageChosen ws 1 true
    chimeArriving := stageChosen ws 2 false
    chimeStanding := stageChosen ws 3 true
    planeExp := loaded 5 9 7 (field ws 23 0 4)
    blinkExp := loaded 3 8 5 (field ws 23 8 4) }

/-! ### The composed lines (R186) and their taking (R88, R93) -/

/-- A composed word: each field as its low bit, its width and its value, every other bit zero (R186). -/
def packed (fs : List (Nat × Nat × Nat)) : Word := BitVec.ofNat 32 (fs.map fun f => f.2.2 % 2 ^ f.2.1 * 2 ^ f.1).sum

/-- The composition sequence after its advance. -/
def advanced (seq : Nat) : Nat := (seq + 1) % 65536

/-- The Phase line (R118). -/
def State.phaseLine (s : State) : List Word :=
  [packed [(0, 1, s.phase.plane.toNat), (1, 1, s.phase.blink.toNat), (2, 1, s.phase.blankAll.toNat)],
    packed [(0, 8, s.params.planeExp), (8, 8, s.params.blinkExp)], 0, 0, 0, 0, 0, packed [(0, 16, s.phase.seq)]]

/-- The Event line (R165). -/
def State.eventLine (s : State) : List Word :=
  [packed [(0, 14, s.report.factors.toNat)], packed [(0, 14, s.report.mask.toNat)],
    (match s.report.lastBad with
      | some (why, kind, slot) => packed [(0, 8, why.code), (8, 8, kind.code), (16, 16, slot)]
      | none => 0),
    packed [(0, 8, s.loader.part.code), (8, 8, causeCode s.report.cause)], 0, 0, 0,
    packed [(0, 16, advanced s.report.seqEvent)]]

/-- The Counter line (R166). -/
def State.counterLine (s : State) : List Word :=
  ((List.range 7).map fun i =>
      packed [(0, 16, s.report.counters.getD (2 * i) 0), (16, 16, s.report.counters.getD (2 * i + 1) 0)])
    ++ [packed [(0, 16, advanced s.report.seqCounter)]]

/-- The three fields of an estimate: all 0 while it is invalid (R186). -/
def estimateFields (e : Estimate) : List (Nat × Nat × Nat) :=
  if e.valid then [(0, 8, e.value), (8, 1, 1), (9, 1, e.held.toNat)] else []

/-- The Position line (R168). -/
def State.positionLine (s : State) : List Word :=
  [packed [(0, 32, s.report.posM)],
    packed [(0, 16, s.report.repSpeed), (16, 1, s.report.settled.toNat), (24, 8, s.route.progress.code)],
    packed (estimateFields s.odo.est ++ [(16, 16, minuteCode s.route.clock)]),
    packed [(0, 16, (s.route.currentEntry.map (·.code)).getD 0), (16, 16, (s.route.targetEntry.map (·.code)).getD 0)],
    packed [(0, 32, (s.route.targetEntry.map fun e => (e.postMm - s.odo.position) / 1000).getD 0xFFFFFFFF)],
    packed [(0, 16, s.route.delay), (16, 16, minuteCode s.expected)], 0, packed [(0, 16, advanced s.report.seqPosition)]]

/-- The Arrival line (R170). -/
def State.arrivalLine (s : State) : List Word :=
  [packed [(0, 16, s.report.arrival.stop)],
    packed [(0, 16, minuteCode s.report.arrival.clock), (16, 16, latenessCode s.report.arrival.lateness)],
    packed [(0, 32, s.report.arrival.posM)], 0, 0, 0, 0, packed [(0, 16, advanced s.report.seqArrival)]]

/-- The banner stop of a SHOWN entry (R81): the AUTO entry's subject, for another entry the TARGET. -/
def State.spokenStop (s : State) (n : Notice) : Option Nat :=
  match n.auto with
  | some (_, subject) => some subject
  | none => s.route.target

/-- The words of the Banner line that speak of the banner stop (R81): `here` says that it is the TARGET. -/
def State.stopWords (s : State) (text : Nat) (stop : Option StopEntry) (here : Bool) : List Word :=
  [packed [(0, 16, text), (16, 16, (stop.map (·.textBase)).getD 0)], packed [(0, 16, (stop.map (·.code)).getD 0)],
    packed (if here then estimateFields s.odo.est else []),
    packed [(0, 16, minuteCode (if here then s.expected else none)), (16, 16, latenessCode (if here then s.lateness else none))],
    0, 0, packed [(0, 16, s.notices.seq)]]

/-- The Banner line (R81). -/
def State.bannerLine (s : State) : List Word :=
  match s.notices.shownEntry with
  | none => packed [] :: s.stopWords 0 none false
  | some n =>
    packed
        [(0, 8, classCode (some n.cls)), (8, 8, stageCode (n.auto.map (·.1))), (16, 8, n.id),
          (24, 8, (((s.spokenStop n).bind s.route.entry).map fun e => (e.side.shown s.route.reversed).code).getD 0)]
      :: s.stopWords n.text ((s.spokenStop n).bind s.route.entry)
          (decide ((s.spokenStop n).isSome = true ∧ s.spokenStop n = s.route.target))

/-- Words 0 to 3 of a strip line (R24): the slot shown, its marker, and the time and lateness by its status. -/
def State.stripLine (s : State) (i : Nat) : List Word :=
  match s.route.entry (if s.route.reversed then 47 - i else i) with
  | none => [0, 0, packed [(0, 16, 0xFFFF)], packed [(0, 16, 0x8000), (16, 16, advanced s.route.stripSeq)]]
  | some e =>
    [packed [(0, 8, markerCode e.kind e.status), (8, 8, (e.side.shown s.route.reversed).code)],
      packed [(0, 16, e.code), (16, 16, e.textBase)],
      packed [(0, 16, minuteCode
        (if e.status = .target then s.expected
        else if e.status = .ahead ∧ e.kind = .call then e.arr.map fun m => (m + s.route.delay) % 1440
        else if e.status = .current then e.dep.map fun m => (m + s.route.delay) % 1440
        else none))],
      packed [(0, 16, latenessCode (if e.status = .target then s.lateness else none)),
        (16, 16, advanced s.route.stripSeq)]]

/-- Words 0 to 3 of a seat label line (R57), for a resolved content. -/
def seatLine (c : SeatContent) (seq : Nat) : List Word :=
  [packed [(0, 8, c.state.code), (8, 8, c.attr.code), (16, 8, resKindCode c.kind)], packed [(0, 16, c.primary.code)],
    packed [(0, 16, c.alternate.code)], packed [(0, 16, c.stop), (16, 16, advanced seq)]]

/-- The composer of REPORT line `idx` has that line pending, and every composer before it in the order of R93 has none: without
the line the flag is cleared and the others follow (R164); a line that the store can take, not held back by `held`, is taken
with the words `ws`, which leaves the composer as in `done`; another waits. -/
def State.Composes (s : State) (idx : Nat) (held : Bool) (cleared done : State) (ws : List Word) : Prop :=
  (s.router.map.report.len ≤ idx → s.settle = cleared.settle)
  ∧ (idx < s.router.map.report.len → held = false → canTake s.store (s.router.map.report.base + idx) = true →
      s.settle = { done with store := takeOffer s.store (s.router.map.report.base + idx) true ws }.settle)
  ∧ (idx < s.router.map.report.len → (held = true ∨ canTake s.store (s.router.map.report.base + idx) = false) →
      cleared.quiet → s.settle = s)

/-- No offer that the store can take stands (R88): a pending REPORT line exists and has no place, the Position line being held
back by its latch too (R169); the lowest pending strip line has no place; the lowest pending seat has changed content and no
place. -/
def State.Settled (s : State) : Prop :=
  s.active = true →
    (s.phase.pending = true → 4 < s.router.map.report.len ∧ canTake s.store (s.router.map.report.base + 4) = false)
    ∧ (s.report.pendEvent = true → 0 < s.router.map.report.len ∧ canTake s.store (s.router.map.report.base + 0) = false)
    ∧ (s.report.pendCounter = true → 1 < s.router.map.report.len ∧ canTake s.store (s.router.map.report.base + 1) = false)
    ∧ (s.report.pendPosition = true → 2 < s.router.map.report.len
        ∧ (s.report.latch ≠ none ∨ canTake s.store (s.router.map.report.base + 2) = false))
    ∧ (s.report.pendArrival = true → 3 < s.router.map.report.len ∧ canTake s.store (s.router.map.report.base + 3) = false)
    ∧ (s.notices.bannerPending = true →
        5 < s.router.map.report.len ∧ canTake s.store (s.router.map.report.base + 5) = false)
    ∧ (∀ i rest, s.route.stripPending = i :: rest → canTake s.store (s.router.map.routeStrip.base + i) = false)
    ∧ (∀ n rest, s.seats.pending = n :: rest → canTake s.store (s.router.map.seatLabel.base + n) = false
        ∧ ((s.seats.recs.getD n {}).composed = false ∨ (s.seats.recs.getD n {}).last ≠ resolveSeat s.route s.seats n))

/-- The strip line that shows a slot (R24). -/
def Route.lineOf (r : Route) (x : Nat) : Nat := if r.reversed then 47 - x else x

/-- The strip lines pending in `u` are those pending in `s` and, below the ROUTE_STRIP length, those of the slots `p` (R25). -/
def State.StripsJoin (s u : State) (p : Nat → Prop) : Prop :=
  ∀ i, i ∈ u.route.stripPending ↔
    (i ∈ s.route.stripPending ∨ (i < s.router.map.routeStrip.len ∧ ∃ x, p x ∧ i = s.route.lineOf x))

/-- The slots whose lines CLOCK and DELAY touch: the TARGET, the CURRENT entry and every AHEAD CALL entry (R25). -/
def Route.Timed (r : Route) (x : Nat) : Prop :=
  ∃ e, r.entry x = some e ∧ (e.status = .target ∨ e.status = .current ∨ (e.kind = .call ∧ e.status = .ahead))

/-- The line of every slot whose shown fields differ between the two states is pending in the second (R25). -/
def State.ChangedLinesJoin (s u : State) : Prop :=
  ∀ x, (s.route.entry x).map StopEntry.strip ≠ (u.route.entry x).map StopEntry.strip →
    s.route.lineOf x < s.router.map.routeStrip.len → s.route.lineOf x ∈ u.route.stripPending

/-- The line of a slot is pending, below the ROUTE_STRIP length (R5, R6). -/
def State.SlotLineJoins (s u : State) (x : Nat) : Prop :=
  s.route.lineOf x < s.router.map.routeStrip.len → s.route.lineOf x ∈ u.route.stripPending

/-- The TARGET's line is pending when its expected time or lateness differs from what the line was last composed with (R25). -/
def State.TargetLineJoins (s u : State) : Prop :=
  ∀ x, u.route.target = some x → s.route.stripLast.getD (s.route.lineOf x) (none, none) ≠ (u.expected, u.lateness) →
    s.route.lineOf x < s.router.map.routeStrip.len → s.route.lineOf x ∈ u.route.stripPending

/-- Every composed seat: below the seat count and the SEAT_LABEL length (R57, R61). -/
def State.everySeat (s : State) : List Nat := List.range (min s.loader.profile.seatCount s.router.map.seatLabel.len)

/-! ### Laws -/

/-- Memory keeps its canonical form. -/
def MemoryLaw (s : State) : Prop := s.mem.wf = true

/-- The Line Store's law (R86, R95): at most 32 entries, no two for one line, a successor only while WRITING, at most one
WRITING. -/
structure StoreLaw (st : List Entry) : Prop where
  atMost32  : st.length ≤ 32
  oneALine  : (st.map (·.line)).Nodup
  successor : ∀ e ∈ st, e.writing = false → e.succ = none
  oneWrite  : (st.filter (·.writing)).length ≤ 1

/-- The Line Store takes in the held words of a write (R102): with none it stands as it is; the other lines' entries stand; in
the entry of the write's line (under the law of the Line Store, which every step keeps) the held words take the write's named
byte lanes, and every other byte of the newest data stands. -/
def State.TakesHeldWords (s t : State) (x : Transfer) : Prop :=
  (s.heldCount x = 0 → t.store = s.store)
    ∧ (∀ l, l ≠ x.line → heldEntry t.store l = heldEntry s.store l)
    ∧ ∀ e, s.mapped = true → StoreLaw s.store → heldEntry s.store x.line = some e →
        ∃ e', heldEntry t.store x.line = some e' ∧ e'.newest.length = e.newest.length
          ∧ ∀ i lane, i < e.width → i < e.newest.length → lane < 4 →
              laneByte (e'.newest.getD i 0) lane =
                (match if x.first ≤ i then x.words[i - x.first]? else none with
                  | some ww => if ww.lanes.getLsbD lane then laneByte ww.data lane else laneByte (e.newest.getD i 0) lane
                  | none => laneByte (e.newest.getD i 0) lane)

/-- The law of the path (R121, R133, R139, R145, R147, R149, R150, R172, R174): while RESET is asserted nothing is under way; a
commit in progress holds its place in the queue, and stands in ACTIVE alone; the queue and the place together never pass 8; in
ACTIVE no profile fetch is in progress; a profile line at the port belongs to a fetch; the Post Buffer never holds more than 4; a
part fetch that is late for a grant stands at a free port, outside every locked sequence. -/
structure PathLaw (s : State) : Prop where
  resetQuiet : s.pins.reset = true → s.loader.part = .loading ∧ s.loader.fetch = none ∧ s.router.coach = none
    ∧ s.router.panel = none ∧ s.router.commit = none ∧ s.router.posts = [] ∧ ∀ p, s.arb.port = some p → p.owner = .abandoned
  commitHolds : s.router.commit ≠ none → s.intake.reserved = true ∧ s.loader.part = .active
  room : s.intake.queue.length + (if s.intake.reserved then 1 else 0) ≤ 8
  activeNoFetch : s.loader.part = .active → s.loader.fetch = none
  lineOfFetch : ∀ p, s.arb.port = some p → p.owner = .profileLine false → s.loader.fetch ≠ none
  posts : s.router.posts.length ≤ 4
  late : s.arb.fetchLate = true →
    s.arb.port = none ∧ s.arb.locked = false ∧ (s.fetchStands ≠ none ∨ s.profileStands ≠ none)

/-- The law of counts (R116, R143, R144, R161): fourteen counters that never pass 65535, at most 16 grants in a locked
sequence with one still open to a transfer that asks, an idle timer of at most 10, a phase tick count below 512. -/
structure CountLaw (s : State) : Prop where
  fourteen : s.report.counters.length = 14
  top : ∀ c ∈ s.report.counters, c ≤ 65535
  grants : s.arb.count ≤ 16
  asking : ∀ c, s.router.coach = some c → c.moment = .waiting → s.arb.locked = true → s.arb.count < 16
  idle : ∀ n, s.arb.idle = some n → n ≤ 10
  phase : s.phase.tick < 512

/-- The odometer's law (R29, R30, R31, R36): the remainder below a millimetre, the window distance at most 1,000,000 mm, four
distances in the ring, a stable run of at most 255, an estimate of at most 99 minutes, 0 and not held while invalid. -/
structure OdoLaw (o : Odo) : Prop where
  remainder : o.remUm < 1000
  window : o.winDist ≤ 1000000
  ring : o.ring.length = 4
  run : o.stableRun ≤ 255
  reported : o.repSpeed ≤ 4000
  minutes : o.est.value ≤ 99
  invalid : o.est.valid = false → o.est.value = 0 ∧ o.est.held = false

/-- The Route Table's law (R1, R2, R7, and the table of progress states): 48 slots with posts rising; a PASS entry is AHEAD,
PASSED or NOT_SERVED; at most one CURRENT and at most one TARGET, the TARGET above the past line and so above the CURRENT;
NO_ROUTE without a CALL entry; no CURRENT before the first stop; the last-missed slot bounds the past, and there is none before
the first stop (R2, R18); a CURRENT while STANDING and a TARGET while moving. -/
structure RouteLaw (r : Route) : Prop where
  slots : r.table.length = 48
  rising : r.entries.Pairwise fun a b => a.2.post < b.2.post
  passStatus : ∀ q ∈ r.entries, q.2.kind = .pass → q.2.status = .ahead ∨ q.2.status = .passed ∨ q.2.status = .notServed
  oneCurrent : (r.entries.filter fun q => decide (q.2.status = .current)).length ≤ 1
  oneTarget : (r.entries.filter fun q => decide (q.2.status = .target)).length ≤ 1
  targetAbove : ∀ t, r.target = some t → r.pastEnd ≤ t
  noRoute : r.progress = .noRoute → ∀ q ∈ r.entries, q.2.kind = .pass
  before : r.progress = .preJourney → r.current = none
  missed : ∀ x, r.lastMissed = some x → r.pastEnd = x + 1
  noneMissed : r.progress = .noRoute ∨ r.progress = .preJourney → r.lastMissed = none
  standing : r.progress = .standing → r.current ≠ none
  moving : r.progress.moving = true → r.target ≠ none

/-- A record of the Intake Queue whose NOTICE_ADD id and class are those of a coach computer notice (R155). -/
def Record.checkedNotice (x : Record) : Prop :=
  match x.contents with
  | .message (.noticeAdd a) => a.id < 255 ∧ a.cls ≠ .auto
  | _ => True

/-- The Notice Queue's law (R66, R67): no two entries with one id, at most 15 of the coach computer, the AUTO class and the id
255 go together, at most one SHOWN, and every NOTICE_ADD that waits is a coach computer notice. -/
structure NoticeLaw (s : State) : Prop where
  oneAnId : (s.notices.queue.map (·.id)).Nodup
  room : (s.notices.queue.filter Notice.fromCoach).length ≤ 15
  auto : ∀ e ∈ s.notices.queue, (e.cls = .auto ↔ e.id = 255)
  oneShown : (s.notices.queue.filter (·.shown)).length ≤ 1
  checked : ∀ x ∈ s.intake.queue, x.checkedNotice

/-- A command that adds and removes no notice leaves the coach computer's entries their content and their order (R66, R74, R75). -/
def State.KeepsCoachNotices (s t : State) : Prop := NoticeLaw s → t.coachNotices = s.coachNotices

/-- The Notice Queue at a command that moves the journey on: the coach computer's entries keep content and order; the AUTO entry is
refreshed at a TARGET_CHANGE (`retargeted`, R75) and then follows a new progress state (R74). -/
structure State.NoticesFollow (s t : State) (retargeted : Prop) : Prop where
  coach : s.KeepsCoachNotices t
  stays : ¬ retargeted → t.route.progress = s.route.progress → t.autoNow = s.autoNow
  refreshed : retargeted → t.route.progress = s.route.progress → t.autoNow = t.autoAtTarget s.autoNow
  staged : ¬ retargeted → t.route.progress ≠ s.route.progress → t.autoNow = t.autoAtStage s.autoNow
  both : retargeted → t.route.progress ≠ s.route.progress → t.autoNow = t.autoAtStage (t.autoAtTarget s.autoNow)

/-! ### When each REPORT line becomes pending -/

/-- What a SHOWN entry shows on the Banner line (R81). -/
def Notice.face (e : Notice) : NClass × Nat × Nat × Option (Stage × Nat) := (e.cls, e.id, e.text, e.auto)

/-- A command at which a message leaves the Intake Queue. -/
def State.Takes (s u : State) : Prop := u.intake.queue ≠ s.intake.queue

/-- One of the events of R168 has been handed on the way from `s` to `u`: WINDOW_END, POSITION_SET, CLOCK_CHANGE, DELAY_CHANGE, and,
read from what they change, STAGE_CHANGE, STOP_REACHED, STOP_MISSED, TARGET_CHANGE and ROUTE_CHANGE. A command but a pulse, whose
distance is no event of R168, changes a field of the Position line by such an event alone; a pulse that departs hands STAGE_CHANGE
before its zero-remaining rule, which acts on a valid estimate (R29, R36). -/
def State.PositionEvent (s : State) (c : Instr) (u : State) : Prop :=
  ((u.route.progress ≠ s.route.progress ∨ u.route.table ≠ s.route.table) ∧ (c = .pulse → s.odo.est.valid = false)) ∨ c = .windowEnd
  ∨ (c = .clockAdvance ∧ s.route.clock ≠ none)
  ∨ ((c = .clock ∨ c = .delay ∨ c = .positionFix ∨ c = .journeyReset ∨ (c = .portionSet ∧ s.route.progress ≠ .ended)) ∧ s.Takes u)
  ∨ (c ≠ .pulse ∧ u.positionFields ≠ s.positionFields)

/-- One of the events of R82's table has been handed on the way from `s` to `u`: WINDOW_END, POSITION_SET, CLOCK_CHANGE,
ORIENTATION_CHANGE, or TARGET_CHANGE with a coach computer entry SHOWN. -/
def State.BannerEvent (s : State) (c : Instr) (u : State) : Prop :=
  c = .windowEnd ∨ (c = .clockAdvance ∧ s.route.clock ≠ none) ∨ ((c = .clock ∨ c = .positionFix) ∧ s.Takes u)
  ∨ (c = .stopCalled ∧ u.route.table ≠ s.route.table) ∨ u.route.reversed ≠ s.route.reversed
  ∨ ((u.route.target ≠ s.route.target ∨ u.route.targetEntry.map StopEntry.plan ≠ s.route.targetEntry.map StopEntry.plan)
      ∧ ∃ e, u.notices.shownEntry = some e ∧ e.fromCoach = true)

/-- When each REPORT line becomes pending, `u` being the state that command `c` makes of `s` before any offer is taken: a pending line
stays so and no sequence moves; on entry to ACTIVE all six join (R84, R120, R164). The Event line joins at each change of a
factor, the mask or the last-bad-record fields, and at a BAD_RECORD that repeats them (R165); the Counter line at each change of a
counter or of a shown value (R166, R167); the Position line when at an event of R168 its fields differ from those last composed; the
Arrival line at an arrival recorded (R170); the Arrival, Position and Banner lines at JOURNEY_RESET (R85, R171); the Banner line at
a showing start, a showing that ends with nothing selected and a refresh of the SHOWN AUTO entry, and when at an event of R82 its
fields differ from those last composed (R82), under the Notice Queue's law; the Phase line at a toggle and at a change of blank-all
(R116, R117). -/
structure State.LinesJoin (s : State) (c : Instr) (u : State) : Prop where
  seqs : u.report.seqEvent = s.report.seqEvent ∧ u.report.seqCounter = s.report.seqCounter
    ∧ u.report.seqPosition = s.report.seqPosition ∧ u.report.seqArrival = s.report.seqArrival
  keep : (s.report.pendEvent = true → u.report.pendEvent = true) ∧ (s.report.pendCounter = true → u.report.pendCounter = true)
    ∧ (s.report.pendPosition = true → u.report.pendPosition = true) ∧ (s.report.pendArrival = true → u.report.pendArrival = true)
    ∧ (s.notices.bannerPending = true → u.notices.bannerPending = true) ∧ (s.phase.pending = true → u.phase.pending = true)
  entry : PathLaw s → s.active = false → u.report.pendEvent = true ∧ u.report.pendCounter = true ∧ u.report.pendPosition = true
    ∧ u.report.pendArrival = true ∧ u.notices.bannerPending = true ∧ u.phase.pending = true
  event : (u.report.factors ≠ s.report.factors ∨ u.report.mask ≠ s.report.mask ∨ u.report.lastBad ≠ s.report.lastBad
    ∨ s.report.counters.getD 0 0 < u.report.counters.getD 0 0) → u.report.pendEvent = true
  counter : (u.report.counters ≠ s.report.counters ∨ u.report.shown ≠ s.report.shown) → u.report.pendCounter = true
  position : s.PositionEvent c u → u.report.pendPosition = true ∨ u.positionFields = u.report.posLast
  arrival : (s.report.arrival.fresh = false ∧ u.report.arrival.fresh = true)
    ∨ { u.report.arrival with fresh := false } ≠ { s.report.arrival with fresh := false } → u.report.pendArrival = true
  reset : c = .journeyReset → s.Takes u →
    u.report.pendArrival = true ∧ u.report.pendPosition = true ∧ u.notices.bannerPending = true
  showing : NoticeLaw s →
    (u.notices.seq ≠ s.notices.seq ∨ u.notices.shownEntry.map Notice.face ≠ s.notices.shownEntry.map Notice.face) →
    u.notices.bannerPending = true
  banner : NoticeLaw s → s.BannerEvent c u → u.notices.bannerPending = true ∨ u.bannerFields = u.notices.last
  phase : (u.phase.plane ≠ s.phase.plane ∨ u.phase.blink ≠ s.phase.blink ∨ u.phase.blankAll ≠ s.phase.blankAll
    ∨ u.phase.seq ≠ s.phase.seq) → u.phase.pending = true

end Sys2Proof.Machine
end

