-- ==== Sys2Proof/Certificates/Slice0/Obligations.lean ====
section
/-! DEFINITION. The statements: what the part and each of its commands do, by the numbered rules of spec/. -/

open Sys2Proof Sys2Proof.Machine

/-! ### The machine -/

/-- A step takes the command at the front of the queue, with the rest of the queue left waiting. -/
def Obligations.StepRunsFrontCommand : Prop :=
  ∀ (c : Instr) (rest : List Instr) (s : State),
    step { s with pending := c :: rest } = exec c { s with pending := rest }

/-- With no command waiting a step is one tick (the model's choice, log 7). While RESET is asserted nothing changes (R181).
Otherwise every running timer moves by one; with no event due the tick does nothing else, and the one event that is due is
taken as its command takes it (R11, R30, R38, R79, R83, R115, R116, R147); several due at one tick come one after another
(log 5). That the minute's ticks of a set clock run in ACTIVE alone is the model's reading of R38 (log 14). Time alone moves no
distance (R29, R33), writes no memory, answers no transfer, takes no record and changes no part state. -/
def Obligations.EmptyQueueTakesOneTick : Prop :=
  ∀ s : State, s.pending = [] →
    ∃ t, step s = .next t ∧ (s.pins.reset = true → t = s) ∧ t.pending = [] ∧ t.mem = s.mem ∧ t.router = s.router
      ∧ t.intake = s.intake ∧ t.loader = s.loader ∧ t.arb.port = s.arb.port
      ∧ t.odo.position = s.odo.position ∧ t.odo.remUm = s.odo.remUm
      ∧ (s.pins.reset = false →
          ((∀ c, ¬ s.oneTick.Due c) → t = s.oneTick)
          ∧ (∀ c, s.oneTick.Due c → (∀ c', s.oneTick.Due c' → c' = c) → c ≠ .phaseToggle → exec c s.oneTick = .next t)
          ∧ (s.oneTick.Due .phaseToggle → (∀ c', s.oneTick.Due c' → c' = .phaseToggle) → s.phase.tick < 512 →
              s.params.planeExp ≤ 9 → s.params.blinkExp ≤ 9 →
              exec .phaseToggle { s.oneTick with phase := s.phase } = .next t))

/-- What the manual says stands after RESET: LOADING, no route, the door closed, every factor clear and enabled, every counter
0, every queue, buffer and store empty, the outputs deasserted (R11, R26, R41, R65, R84, R105, R119, R120, R138, R148, R159,
R171, R172); and every law of the model holds there. -/
def Obligations.ResetState : Prop :=
  State.reset.loader.part = .loading ∧ State.reset.route.progress = .noRoute
    ∧ State.reset.route.table = List.replicate 48 none ∧ State.reset.route.delay = 0 ∧ State.reset.route.clock = none
    ∧ State.reset.route.reversed = false ∧ State.reset.route.portion = 0
    ∧ State.reset.odo.doorLevel = false ∧ State.reset.odo.position = 0 ∧ State.reset.odo.ring = [0, 0, 0, 0]
    ∧ State.reset.odo.est.valid = false
    ∧ State.reset.seats.pool = [] ∧ State.reset.notices.queue = [] ∧ State.reset.store = []
    ∧ State.reset.windows.bannerTarget = none ∧ State.reset.windows.bannerLatch = none
    ∧ State.reset.windows.routeLatch = none
    ∧ State.reset.phase.plane = false ∧ State.reset.phase.blink = true ∧ State.reset.phase.blankAll = true
    ∧ State.reset.router.posts = [] ∧ State.reset.router.commit = none ∧ State.reset.intake.queue = []
    ∧ State.reset.arb.locked = false ∧ State.reset.arb.lastStore = false
    ∧ State.reset.report.factors = 0 ∧ State.reset.report.mask = BitVec.allOnes 14
    ∧ State.reset.report.counters = List.replicate 14 0
    ∧ State.reset.notify = false ∧ State.reset.chime = false
    ∧ MemoryLaw State.reset ∧ StoreLaw State.reset.store ∧ PathLaw State.reset ∧ CountLaw State.reset
    ∧ OdoLaw State.reset.odo ∧ RouteLaw State.reset.route ∧ NoticeLaw State.reset

/-- RESET asserted, in any state: every block at its after-RESET values, an outstanding transfer answered FAULT (R138), a
transfer presented to memory left to finish (R148); kept are memory, the profile base (R173) and the commands waiting. That the
levels of DOOR, WHEEL and the straps are kept, and the answers already given at a port with nothing outstanding, is the model's
choice (DESIGN CHOICE, log 28). The outputs are deasserted. -/
def Obligations.ResetAssertedClearsBlocks : Prop :=
  ∀ s : State, ∃ t, exec .resetAsserted s = .next t
    ∧ t.pins = { s.pins with reset := true } ∧ t.loader = { State.reset.loader with base := s.loader.base }
    ∧ t.router =
        { State.reset.router with
          coachAnswer := if s.router.coach.isSome then some .fault else s.router.coachAnswer
          panelAnswer := if s.router.panel.isSome then some .fault else s.router.panelAnswer }
    ∧ t.arb = { State.reset.arb with port := s.arb.port.map fun p => { p with owner := .abandoned } }
    ∧ t.windows = State.reset.windows ∧ t.intake = State.reset.intake ∧ t.route = State.reset.route
    ∧ t.odo = State.reset.odo ∧ t.seats = State.reset.seats ∧ t.notices = State.reset.notices
    ∧ t.store = State.reset.store ∧ t.phase = State.reset.phase ∧ t.report = State.reset.report
    ∧ t.mem = s.mem ∧ t.pending = s.pending ∧ t.notify = false ∧ t.chime = false

/-- RESET released: the straps choose the profile base by the table of R173, the fetch of the Profile Block begins (R174), and
nothing else changes. -/
def Obligations.ResetReleasedBeginsFetch : Prop :=
  ∀ (s : State) (p1 p0 : Bool), s.pins.reset = true →
    ∃ t, exec (.resetReleased p1 p0) s = .next t
      ∧ t.loader.base * 32 = (if p1 then (if p0 then 0x3FFFF80 else 0x2000000) else (if p0 then 0x0100000 else 0))
      ∧ t.loader.fetch = some []
      ∧ t = { s with
          pins := { s.pins with reset := false, psel1 := p1, psel0 := p0 }
          loader := { s.loader with base := t.loader.base, fetch := some [] } }

/-! ### Doors, wheel and departures -/

/-- A door-release acceptance in PRE_JOURNEY, or in a moving state within the arrive distance, reaches the stop at the TARGET
(R12, R14): STANDING with the flag cleared, the TARGET CURRENT, the old CURRENT and the timing points below PASSED, the next
TARGET the first AHEAD calling stop above; the position is not changed; STOP_REACHED and STAGE are set (R160), the Arrival line
records the arrival in EMPTY and ARRIVAL_OVERRUN is set and counted in FRESH (R170), the estimate is invalid (R36) and the Router
has the reached slot (R110). The AUTO entry speaks of the stop reached (R73, R74), the coach computer's notices stand, and
blank-all follows (R116, R117). The strip lines of the changed slots and every composed seat become pending (R25, R61). The
acceptance is taken whatever the filter's count was, and the DOOR line then shows the level (the model's choices, log 1 and log
24). -/
def Obligations.DoorReleaseReachesTarget : Prop :=
  ∀ (s : State) (x : Nat) (e : StopEntry), RouteLaw s.route → s.active = true → s.odo.doorLevel = false →
    s.route.target = some x → s.route.entry x = some e →
    (s.route.progress = .preJourney
      ∨ (s.route.progress.moving = true ∧ e.postMm - s.odo.position ≤ s.params.arriveM * 1000)) →
    ∃ t u : State, exec .doorReleaseAcceptance s = .next t ∧ t = u.settle ∧ s.ChangedLinesJoin u ∧ u.seats.pending = s.everySeat
      ∧ t.path = { s.path with pins := { s.pins with door := true } }
      ∧ t.route.progress = .standing ∧ t.route.departFlag = false ∧ t.route.lastMissed = none
      ∧ t.route.current = some x
      ∧ t.route.target = (s.route.entries.find? fun q => decide (x < q.1) && q.2.isCall && decide (q.2.status = .ahead)).map (·.1)
      ∧ (∀ i, t.route.entry i = (s.route.entry i).map fun e => { e with status := arrivalStatus x t.route.target i e })
      ∧ t.route.settings = s.route.settings
      ∧ t.odo = { s.odo with doorLevel := true, doorCount := 0, est := {} }
      ∧ t.seats.pool = s.seats.pool
      ∧ t.windows.current = some x ∧ t.windows.reversed = s.windows.reversed
      ∧ t.windows.rest = { s.windows.rest with current := some x }
      ∧ s.PhaseFollows t True ∧ s.KeepsCoachNotices t ∧ t.autoNow = t.autoAtStage s.autoNow
      ∧ t.report.has .stopReached = true ∧ t.report.has .stage = true
      ∧ t.reported =
          ((s.reported.withFactor .stopReached).withArrival s.router.map.report.len e s.route.clock
            (s.odo.position / 1000)).withFactor .stage

/-- A door-release acceptance that reaches no stop (R12). In a moving state farther than the arrive distance the coach halts
outside a stop: HALTED, STAGE and UNPLANNED_STOP set, UNPLANNED_STOP counted, a valid estimate held (R36), nothing else of the
route changed, no notice either (R74). In STANDING it clears the departure flag and has no other effect; in NO_ROUTE, HALTED and
ENDED, and in PRE_JOURNEY without a TARGET, it has none. The accepted level is released (R11). While the part is not ACTIVE the
acceptance changes the accepted level alone (R11, R26). The acceptance is taken whatever the filter's count was, and the DOOR line
then shows the level (the model's choices, log 1 and log 24). -/
def Obligations.DoorReleaseHaltsOrIdles : Prop :=
  (∀ (s : State) (x : Nat) (e : StopEntry), s.active = true → s.odo.doorLevel = false →
    s.route.target = some x → s.route.entry x = some e →
    s.route.progress.moving = true → s.params.arriveM * 1000 < e.postMm - s.odo.position →
    ∃ t, exec .doorReleaseAcceptance s = .next t
      ∧ t.path = { s.path with pins := { s.pins with door := true } }
      ∧ t.route.facts = { s.route.facts with progress := .halted }
      ∧ t.odo = { s.odo with
          doorLevel := true, doorCount := 0
          est := if s.odo.est.valid then { s.odo.est with held := true } else s.odo.est }
      ∧ t.seats.pool = s.seats.pool ∧ t.windows.rest = s.windows.rest
      ∧ s.PhaseFollows t True ∧ s.KeepsCoachNotices t ∧ t.autoNow = s.autoNow
      ∧ t.reported = ((s.reported.withFactor .stage).withFactor .unplannedStop).withCount .unplannedStop)
  ∧ (∀ s : State, s.active = true → s.odo.doorLevel = false →
    (s.route.progress = .standing ∨ s.route.progress = .noRoute ∨ s.route.progress = .halted ∨ s.route.progress = .ended
      ∨ (s.route.progress = .preJourney ∧ s.route.target = none)) →
    ∃ t, exec .doorReleaseAcceptance s = .next t
      ∧ t.path = { s.path with pins := { s.pins with door := true } } ∧ t.windows = s.windows ∧ t.reported = s.reported
      ∧ t.journey = { s.journey with
          route := { s.route.facts with
            departFlag := if s.route.progress = .standing then false else s.route.departFlag }
          odo := { s.odo with doorLevel := true, doorCount := 0 } })
  ∧ (∀ s : State, s.pins.reset = false → s.active = false → s.odo.doorLevel = false →
    exec .doorReleaseAcceptance s =
      .next { s with pins := { s.pins with door := true }, odo := { s.odo with doorLevel := true, doorCount := 0 } })

/-- A door-closed acceptance (R13): in STANDING it sets the departure flag; in HALTED the state re-derived by R17 is entered and
handed as STAGE_CHANGE, ENDED when no target remains, where the reservations behind the train expire (R56); the AUTO entry and
blank-all follow the new state (R74, R117) and the coach computer's notices stand; in every other state it has no effect. While
the part is not ACTIVE the acceptance changes the accepted level alone (R11, R26). The acceptance is taken whatever the filter's
count was, and the DOOR line then shows the level (the model's choices, log 1 and log 24). -/
def Obligations.DoorClosedActsByState : Prop :=
  (∀ s : State, s.active = true → s.odo.doorLevel = true →
    ∃ t, exec .doorClosedAcceptance s = .next t
      ∧ t.path = { s.path with pins := { s.pins with door := false } }
      ∧ (s.route.progress = .halted →
          t.route.facts = { s.route.facts with progress := s.derive } ∧ t.report.has .stage = true
            ∧ (s.route.target = none → t.route.progress = .ended)
            ∧ s.PoolFollows t ∧ t.windows.rest = s.windows.rest ∧ s.PhaseFollows t True ∧ s.NoticesFollow t False
            ∧ t.odo.figures = { s.odo.figures with doorLevel := false, doorCount := 0 })
      ∧ (s.route.progress ≠ .halted →
          t.windows = s.windows ∧ t.reported = s.reported
            ∧ t.journey = { s.journey with
                route := { s.route.facts with
                  departFlag := if s.route.progress = .standing then true else s.route.departFlag }
                odo := { s.odo with doorLevel := false, doorCount := 0 } }))
  ∧ (∀ s : State, s.pins.reset = false → s.active = false → s.odo.doorLevel = true →
    exec .doorClosedAcceptance s =
      .next { s with pins := { s.pins with door := false }, odo := { s.odo with doorLevel := false, doorCount := 0 } })

/-- A pulse under the closed door level, once the filter has sampled a level (R41) and whether or not an earlier edge left the
line at its new one (its return comes before the edge, log 25), adds its distance to the remainder, the position and the window
distance with their limits (R29), and applies the zero-remaining rule (R36); outside a departure it changes nothing else of the
journey. -/
def Obligations.PulseAddsDistance : Prop :=
  ∀ s : State, s.active = true → s.odo.doorLevel = false → s.odo.wheelLevel ≠ none →
    ¬ (s.route.progress = .standing ∧ s.route.departFlag = true) →
    ∃ t, exec .pulse s = .next t ∧ t.windows = s.windows ∧ t.reported = s.reported
      ∧ t.path = { s.path with pins := { s.pins with wheel := !s.params.falling } }
      ∧ t.odo.position = min 4000000000 (s.odo.position + (s.odo.remUm + s.params.pulseUm) / 1000)
      ∧ t.odo.winDist = min 1000000 (s.odo.winDist + (s.odo.remUm + s.params.pulseUm) / 1000)
      ∧ t.odo.remUm = (s.odo.remUm + s.params.pulseUm) % 1000
      ∧ t.odo.est =
          (if s.odo.est.valid = true ∧ (∃ e, s.route.targetEntry = some e ∧ e.postMm ≤ t.odo.position) then
            { value := 0, valid := true, held := false }
          else s.odo.est)
      ∧ t.journey = { s.journey with
          odo := { s.odo with
            wheelLevel := some (!s.params.falling), position := t.odo.position, winDist := t.odo.winDist
            remUm := t.odo.remUm, est := t.odo.est } }

/-- A pulse under the released door level is discarded: the wheel filter alone follows the line (R29, R28). A rejected edge is
counted and adds no distance (R28). From the first level sampled after reset, and while the part is not ACTIVE, no edge is
accepted or counted: the filter follows the line (R28, R41). The return of the line that a later edge needs (R28) comes before
the edge, and leaves nothing behind but the two levels (the model's choice, log 25). -/
def Obligations.PulseDiscardedOrRejected : Prop :=
  (∀ s : State, s.active = true → s.odo.doorLevel = true → s.odo.wheelLevel ≠ none →
    exec .pulse s =
      .next { s with
        pins := { s.pins with wheel := !s.params.falling }
        odo := { s.odo with wheelLevel := some (!s.params.falling) } })
  ∧ (∀ s : State, s.active = true → s.params.noise ≠ 0 → s.odo.wheelLevel ≠ none →
    ∃ t, exec .pulseRejected s = .next t ∧ t.windows = s.windows
      ∧ t.path = { s.path with pins := { s.pins with wheel := s.params.falling } }
      ∧ t.journey = { s.journey with odo := { s.odo with wheelLevel := some s.params.falling } }
      ∧ t.reported = s.reported.withCount .pulseRejected)
  ∧ (∀ s : State, s.pins.reset = false → (s.active = false ∨ s.odo.wheelLevel = none) →
    exec .pulse s =
      .next { s with
        pins := { s.pins with wheel := !s.params.falling }
        odo := { s.odo with wheelLevel := some (!s.params.falling) } }
    ∧ (s.params.noise ≠ 0 →
        exec .pulseRejected s =
          .next { s with
            pins := { s.pins with wheel := s.params.falling }
            odo := { s.odo with wheelLevel := some s.params.falling } }))

/-- The coach departs in STANDING, by the first accepted pulse with the departure flag set or by DEPART (R15): DEPARTED, or ENDED
when no TARGET remains; no status changes and the flag stays set (log 21); a pulse adds its distance (R29), DEPART none; of the
Pool exactly the reservations that end at or below the stop left expire (R55), and of the notices exactly those shown until that
departure leave (R72), the others keeping their order; the AUTO entry speaks of the next stop, or leaves at the end (R73, R74),
and blank-all and the phase sequence follow the new state (R117); every composed seat becomes pending (R61). DEPART in any other
state is refused with reason STATE and changes nothing of the journey. -/
def Obligations.CoachDeparts : Prop :=
  (∀ (s : State) (c : Instr) (x : Nat), s.active = true → s.route.progress = .standing → s.route.current = some x →
    ((c = .pulse ∧ s.odo.wheelLevel ≠ none ∧ s.odo.doorLevel = false ∧ s.route.departFlag = true)
      ∨ (c = .depart ∧ ∃ n, s.head = some { slot := n, contents := .message .depart })) →
    ∃ t u : State, exec c s = .next t ∧ t = u.settle ∧ u.seats.pending = s.everySeat
      ∧ t.route.facts = { s.route.facts with progress := if s.route.target.isSome then .departed else .ended }
      ∧ t.report.has .stage = true
      ∧ (c = .depart → t.path = s.popHead.path ∧ t.odo.figures = s.odo.figures)
      ∧ (c ≠ .depart →
          t.path = { s.path with pins := { s.pins with wheel := !s.params.falling } }
          ∧ t.odo.figures = { s.odo.figures with
              wheelLevel := some (!s.params.falling)
              position := min 4000000000 (s.odo.position + (s.odo.remUm + s.params.pulseUm) / 1000)
              winDist := min 1000000 (s.odo.winDist + (s.odo.remUm + s.params.pulseUm) / 1000)
              remUm := (s.odo.remUm + s.params.pulseUm) % 1000 })
      ∧ (∀ n ∈ t.notices.queue, n.fromCoach = true → n.expiry ≠ .untilDepart (s.route.codeAt x))
      ∧ (NoticeLaw s →
          (t.notices.queue.filter Notice.fromCoach).map Notice.content =
            (s.notices.queue.filter fun n =>
              n.fromCoach && decide (n.expiry ≠ .untilDepart (s.route.codeAt x))).map Notice.content)
      ∧ (NoticeLaw s → t.autoNow = t.autoAtStage s.autoNow)
      ∧ t.windows.rest = s.windows.rest ∧ s.PhaseFollows t True
      ∧ t.seats.pool = s.seats.pool.filter fun q => (q.2.mappedTo s.route).all fun m => decide (x < m))
  ∧ (∀ (s : State) (n : Nat), s.head = some { slot := n, contents := .message .depart } → s.route.progress ≠ .standing →
    s.Refuses .depart .state n)

/-! ### Window ends and the clock -/

/-- A window end (R30, R31): the ring takes the window distance, the speed is the mean of its four distances, the stable run grows
within the hysteresis up to 255 and else becomes 0, the speed is settled by the stable windows and the minimum speed; the window
timer begins again whatever its count was (log 1); the position, the remainder and the filters stand, and no entry's content
changes. No window end touches the Router's slot, orientation and latches, the coach computer's notices, the phase count, the
plane or the blink state; reservations leave only where it ends the journey (R56), and blank-all and the phase sequence change
only with the state (R117). In HALTED, STANDING, and PRE_JOURNEY short of the depart distance, the timing points are all that the
Route Tracker takes (R16, step 1): progress state, TARGET and estimate stand, no factor is set, and the lines of the points passed
become pending (R25); in NO_ROUTE and ENDED it takes nothing. -/
def Obligations.WindowEndFigures : Prop :=
  ∀ (s : State) (a b c p : Nat), s.active = true → s.odo.ring = [a, b, c, p] →
    ∃ t, exec .windowEnd s = .next t ∧ t.path = s.path
      ∧ t.odo.figures = { s.odo.figures with
          ring := [b, c, p, s.odo.winDist]
          speed := (b + c + p + s.odo.winDist) / 4
          repSpeed := min 4000 (((b + c + p + s.odo.winDist) / 4 * 36 + 500) / 1000)
          stableRun := if gap s.odo.winDist p ≤ s.params.hysteresis then min 255 (s.odo.stableRun + 1) else 0
          settled := decide (s.params.stableWindows ≤ t.odo.stableRun) && decide (s.params.minSpeed ≤ t.odo.speed)
          winDist := 0, winTimer := 0 }
      ∧ t.route.plan = s.route.plan ∧ t.route.settings = s.route.settings
      ∧ t.windows.rest = s.windows.rest ∧ s.PoolFollows t ∧ s.PhaseFollows t (t.route.progress ≠ s.route.progress) ∧ s.KeepsCoachNotices t
      ∧ (s.route.progress.blank = true →
          t.route.facts = s.route.facts ∧ t.odo.est = s.odo.est ∧ t.autoNow = s.autoNow ∧ t.reported = s.reported.withPosition t.odo)
      ∧ (s.route.progress.blank = false → s.route.progress.moving = false →
          (s.route.progress = .preJourney → ∀ e, s.route.targetEntry = some e →
            s.odo.position < e.postMm + s.params.departM * 1000) →
          (∃ u : State, t = u.settle ∧ s.ChangedLinesJoin u ∧ s.TargetLineJoins u)
            ∧ (∀ i, t.route.entry i = (s.route.entry i).map fun e =>
                { e with status := timedStatus s.route.pastEnd s.odo.position i e })
            ∧ t.route.target = s.route.target
            ∧ t.route.facts = { s.route.facts with table := t.route.table }
            ∧ t.odo.est = s.odo.est ∧ t.autoNow = s.autoNow ∧ t.reported = s.reported.withPosition t.odo)

/-- A window end in a moving state whose TARGET is not yet passed by the pass margin passes the timing points reached (R16, step
1), computes the estimate (R35) and moves the state forward, never back (R16, step 4); a change of state sets STAGE and is
followed by the AUTO entry (R73, R74); the CURRENT, its flag, the last-missed slot, the Pool, the coach computer's notices, the
Router's slot, orientation and latches and the phase stand. The strip lines of changed slots become pending, and the TARGET's at a
changed time (R25). -/
def Obligations.WindowEndEstimates : Prop :=
  ∀ (s : State) (e : StopEntry), s.active = true → s.route.progress.moving = true → s.route.targetEntry = some e →
    s.odo.position < e.postMm + s.params.passMargin * 1000 →
    ∃ t u : State, exec .windowEnd s = .next t ∧ t = u.settle ∧ s.ChangedLinesJoin u ∧ s.TargetLineJoins u ∧ t.path = s.path
      ∧ t.odo.est = estimateAt (e.postMm - s.odo.position) t.odo.speed t.odo.settled s.params.minSpeed s.odo.est
      ∧ t.route.progress =
          stateForward s.route.progress (e.postMm - s.odo.position) s.odo.position s.route.currentEntry s.params t.odo.est
      ∧ t.route.target = s.route.target ∧ t.route.current = s.route.current
      ∧ (∀ i, t.route.entry i = (s.route.entry i).map fun q =>
          { q with status := timedStatus s.route.pastEnd s.odo.position i q })
      ∧ t.reported =
          (if t.route.progress = s.route.progress then s.reported else s.reported.withFactor .stage).withPosition t.odo
      ∧ t.route.plan = s.route.plan ∧ t.route.settings = s.route.settings
      ∧ t.route.facts = { s.route.facts with table := t.route.table, progress := t.route.progress }
      ∧ t.seats.pool = s.seats.pool ∧ t.windows.rest = s.windows.rest
      ∧ s.PhaseFollows t (t.route.progress ≠ s.route.progress) ∧ s.NoticesFollow t False

/-- A window end in a moving state whose TARGET is passed by the pass margin (R16, step 3): the TARGET is MISSED, the last-missed
slot is set, STOP_MISSED is set and counted once for each stop missed, no later TARGET is left passed by the margin, the estimate is
invalid (R36), and the state is the one R17 derives; the timing points reached before are PASSED (step 1). Each new TARGET refreshes
the AUTO entry and a new state replaces or removes it (R74, R75); the coach computer's notices stand, and the Pool but for the
expiry at ENDED (R56). The strip lines of changed slots, the TARGET's at a changed time, and every
composed seat become pending (R25, R61). -/
def Obligations.WindowEndMissesTarget : Prop :=
  ∀ (s : State) (x : Nat) (e : StopEntry), RouteLaw s.route → s.active = true → s.route.progress.moving = true →
    s.route.target = some x → s.route.entry x = some e → e.postMm + s.params.passMargin * 1000 ≤ s.odo.position →
    ∃ t u : State, exec .windowEnd s = .next t ∧ t = u.settle ∧ s.ChangedLinesJoin u ∧ s.TargetLineJoins u
      ∧ u.seats.pending = s.everySeat ∧ t.path = s.path
      ∧ t.route.entry x = some { e with status := .missed }
      ∧ (∀ i q, s.route.entry i = some q → q.kind = .pass →
          t.route.entry i = some { q with status := timedStatus s.route.pastEnd s.odo.position i q })
      ∧ (∃ y, x ≤ y ∧ t.route.lastMissed = some y)
      ∧ t.report.has .stopMissed = true ∧ t.odo.est = {} ∧ t.odo.position = s.odo.position
      ∧ (∃ n, 1 ≤ n
          ∧ (t.route.entries.filter fun q => decide (q.2.status = .missed)).length =
              (s.route.entries.filter fun q => decide (q.2.status = .missed)).length + n
          ∧ t.report.counters = Nat.repeat (raised .stopMissed) n s.report.counters)
      ∧ (∀ y e', t.route.target = some y → t.route.entry y = some e' →
          s.odo.position < e'.postMm + s.params.passMargin * 1000)
      ∧ t.route.progress = t.derive
      ∧ t.route.plan = s.route.plan ∧ t.route.settings = s.route.settings
      ∧ t.route.facts =
          { s.route.facts with table := t.route.table, progress := t.route.progress, lastMissed := t.route.lastMissed }
      ∧ s.PoolFollows t ∧ t.windows.rest = s.windows.rest
      ∧ s.PhaseFollows t (t.route.progress ≠ s.route.progress) ∧ s.NoticesFollow t True

/-- A window end in PRE_JOURNEY at the depart distance beyond the TARGET (R16, step 2): the first stop is PASSED, not MISSED, the
target is reselected, the state is RUNNING, or ENDED with no target left; the estimate is not computed, and STAGE is all that is
set. Step 3 is not taken at the same window end, so the new TARGET, the next stop (R7), stands though it may be passed by the pass
margin (log 13), and no other entry changes but the timing points reached (step 1) and the new TARGET. The AUTO entry speaks of the
next stop (R73 to R75), or leaves at ENDED, where the reservations behind the train expire (R56); blank-all and the phase sequence
follow the state (R117). The strip lines of changed slots, the
TARGET's at a changed time, and every composed seat become pending (R25, R61). -/
def Obligations.WindowEndLeavesPreJourney : Prop :=
  ∀ (s : State) (x : Nat) (e : StopEntry), RouteLaw s.route → s.active = true → s.route.progress = .preJourney →
    s.route.target = some x → s.route.entry x = some e → e.postMm + s.params.departM * 1000 ≤ s.odo.position →
    ∃ t u : State, exec .windowEnd s = .next t ∧ t = u.settle ∧ s.ChangedLinesJoin u ∧ s.TargetLineJoins u
      ∧ u.seats.pending = s.everySeat ∧ t.path = s.path
      ∧ t.route.entry x = some { e with status := .passed } ∧ t.route.TargetIsNext
      ∧ (∀ i, i ≠ x → t.route.entry i = (s.route.entry i).map fun q =>
          { q with status := afterSelect t.route.target i (timedStatus s.route.pastEnd s.odo.position i q) })
      ∧ t.route.progress = (if t.route.target.isSome then .running else .ended)
      ∧ t.reported = (s.reported.withFactor .stage).withPosition t.odo ∧ t.report.has .stage = true ∧ t.odo.est = {} ∧ t.odo.position = s.odo.position
      ∧ t.route.plan = s.route.plan ∧ t.route.settings = s.route.settings
      ∧ t.route.facts = { s.route.facts with table := t.route.table, progress := t.route.progress }
      ∧ s.PoolFollows t ∧ t.windows.rest = s.windows.rest ∧ s.PhaseFollows t True
      ∧ s.KeepsCoachNotices t ∧ t.autoNow = t.autoAtTarget (t.autoAtStage s.autoNow)

/-- The expected arrival minute and the lateness (R37): the minute is given exactly when the clock is set and the estimate valid,
held or not, and the lateness when a planned arrival is given too, from −720 to 719 minutes, the shorter way round midnight. A
line that shows them is composed with them as they then stand: both on the TARGET's strip line and on the Banner line of the TARGET,
the minute on the Position line, which shows a valid estimate without a clock too; the other stops' lines show planned times with
the delay and no lateness. -/
def Obligations.ExpectedTimesAtTarget : Prop :=
  ∀ s : State,
    ((s.odo.est.valid = false ∨ s.route.clock = none) → s.expected = none)
    ∧ (∀ c, s.odo.est.valid = true → s.route.clock = some c → s.expected = some ((c + s.odo.est.value) % 1440))
    ∧ (∀ x e a, s.expected = some x → s.route.targetEntry = some e → e.arr = some a →
        ∃ l, s.lateness = some l ∧ -720 ≤ l ∧ l ≤ 719 ∧ (l - ((x : Int) - a)) % 1440 = 0)
    ∧ (∀ l, s.lateness = some l → ∃ x e a, s.expected = some x ∧ s.route.targetEntry = some e ∧ e.arr = some a)
    ∧ (∀ i e, s.route.entry (if s.route.reversed then 47 - i else i) = some e →
        (s.stripWords i (seqNext s.route.stripSeq)).getD 2 0 = packed [(0, 16, minuteCode
          (if e.status = .target then s.expected
          else if e.status = .ahead ∧ e.kind = .call then e.arr.map fun m => (m + s.route.delay) % 1440
          else if e.status = .current then e.dep.map fun m => (m + s.route.delay) % 1440
          else none))]
        ∧ (s.stripWords i (seqNext s.route.stripSeq)).getD 3 0 =
          packed [(0, 16, latenessCode (if e.status = .target then s.lateness else none)), (16, 16, advanced s.route.stripSeq)])
    ∧ (positionWords s.positionFields (seqNext s.report.seqPosition)).getD 2 0 =
        packed (estimateFields s.odo.est ++ [(16, 16, minuteCode s.route.clock)])
    ∧ (positionWords s.positionFields (seqNext s.report.seqPosition)).getD 5 0 =
        packed [(0, 16, s.route.delay), (16, 16, minuteCode s.expected)]
    ∧ (∀ n, s.notices.shownEntry = some n → s.spokenStop n = s.route.target → s.route.target ≠ none →
        (bannerWords s.bannerFields).getD 3 0 = packed (estimateFields s.odo.est)
        ∧ (bannerWords s.bannerFields).getD 4 0 =
          packed [(0, 16, minuteCode s.expected), (16, 16, latenessCode s.lateness)])

/-- A clock advance takes a set clock one minute on, from 1439 to 0, with a fresh tick count, whatever the count was (log 1), and
changes nothing else of the journey (R38). The TARGET's strip line becomes pending at a changed time (R25). -/
def Obligations.ClockAdvancesOneMinute : Prop :=
  ∀ (s : State) (c : Nat), s.active = true → s.route.clock = some c → c ≤ 1439 →
    ∃ t u : State, exec .clockAdvance s = .next t ∧ t = u.settle ∧ s.TargetLineJoins u
      ∧ t.path = s.path ∧ t.windows = s.windows ∧ t.reported = s.reported
      ∧ t.journey = { s.journey with
          route := { s.route.facts with clock := some (if c = 1439 then 0 else c + 1), clockTicks := 0 } }

/-- The dwell expiry of the SHOWN entry, whatever its countdown (log 1; R79): an entry whose show count is used up leaves the
queue, one with showings left counts one down, another stays; while the journey runs the first entry of the highest priority after
the rotation mark is SHOWN afterwards, the mark's own entry being looked at last (R77), where the mark of an entry that left has
passed to the one before (R67). The entry selected is shown by a showing start, with its dwell, the next sequence number, the
mark, its chime and its banner target (R76, R80, R83); when the same entry is taken again its showing goes on, with its dwell
counted afresh and nothing else of it changed (R77); with none left nothing is SHOWN and the banner has no target (R78). The mark
after a showing start is the entry started, a preempting one too (log 36). -/
def Obligations.DwellExpiryEndsShowing : Prop :=
  ∀ (s : State) (e : Notice), NoticeLaw s → s.active = true → s.notices.shownEntry = some e →
    ∃ t, exec .dwellExpiry s = .next t ∧ t.path = s.path ∧ t.reported = s.reported ∧ t.route.facts = s.route.facts
      ∧ t.odo = s.odo ∧ t.seats.pool = s.seats.pool ∧ t.phase.facts = s.phase.facts
      ∧ (∀ n, e.expiry = .showCount n → n ≤ 1 →
          t.notices.queue.map (·.id) = (s.notices.queue.map (·.id)).filter fun i => decide (i ≠ e.id))
      ∧ (∀ n, e.expiry = .showCount n → 1 < n →
          t.notices.queue.map (·.id) = s.notices.queue.map (·.id)
            ∧ ∃ q ∈ t.notices.queue, q.id = e.id ∧ q.expiry = .showCount (n - 1))
      ∧ ((∀ n, e.expiry ≠ .showCount n) → t.notices.queue.map (·.id) = s.notices.queue.map (·.id))
      ∧ (s.route.progress.blank = true → t.notices.shownEntry = none)
      ∧ (s.route.progress.blank = false → t.notices.queue ≠ [] →
          ∃ q, t.notices.shownEntry = some q ∧ q.priority = topPriority t.notices.queue)
      ∧ (∀ before after, s.notices.queue = before ++ e :: after → s.route.progress.blank = false →
          t.notices.shownEntry.map (·.id) =
            if e.usedUp then selectedId (markWithout s.notices.mark before e) (before ++ after)
            else selectedId s.notices.mark s.notices.queue)
      ∧ (∀ before after, s.notices.queue = before ++ e :: after → s.route.progress.blank = false →
          t.shows =
            if e.usedUp then { s.shows with mark := markWithout s.notices.mark before e }.select s (before ++ after)
            else if selectedId s.notices.mark s.notices.queue = some e.id then { s.shows with dwell := e.dwell }
            else s.shows.select s s.notices.queue)

/-- Three timers at their ends, whatever their counts (log 1): a chime pulse ends and CHIME is deasserted (R83); a latch frees and
REMAP_LATCH_TIMEOUT is counted (R115); a locked sequence ends with LOCK_BROKEN, set and counted, and LOCK_IDLE, counted, and the
next grant is made among the requests standing then (R147). Nothing else changes but compositions. -/
def Obligations.TimersRunOut : Prop :=
  (∀ s : State, s.chime = true →
    exec .chimePulseEnd s = .next { s with notices := { s.notices with chimeTimer := none } })
  ∧ (∀ (s : State) (w : Win) (l : Latch), s.mapped = true → s.windows.latch w = some l →
    ∃ t, exec (.remapLatchTimeout w) s = .next t ∧ t.path = s.path ∧ t.journey = s.journey
      ∧ t.windows = (match w with
          | .banner => { s.windows with bannerLatch := none }
          | .route => { s.windows with routeLatch := none })
      ∧ t.reported = s.reported.withCount .latchTimeout)
  ∧ (∀ (s : State) (n : Nat), s.arb.locked = true → s.arb.idle = some n →
    ∃ t, exec .lockIdleExpiry s = .next t
      ∧ t.path = { s.path with arb := { s.arb with locked := false, count := 0, idle := none, fetchLate := false } }
      ∧ t.windows = s.windows ∧ t.journey = s.journey
      ∧ t.reported = ((s.reported.withFactor .lockBroken).withCount .lockBroken).withCount .lockIdle)

/-- A phase toggle stands for the next tick count that is a multiple of 2^k or of 2^j, which the count then has (the model's
choice, log 1; by ticks it is reached one by one): there, by R116, the plane toggles at the multiples of
2^k, the blink state at the multiples of 2^j, and the sequence advances once. -/
def Obligations.PhaseToggles : Prop :=
  ∀ s : State, s.active = true → s.phase.tick < 512 → 5 ≤ s.params.planeExp → s.params.planeExp ≤ 9 →
    3 ≤ s.params.blinkExp → s.params.blinkExp ≤ 8 →
    ∃ t, exec .phaseToggle s = .next t ∧ t.path = s.path ∧ t.windows = s.windows ∧ t.reported = s.reported
      ∧ t.phase.tick < 512 ∧ (s.phase.tick < t.phase.tick ∨ t.phase.tick = 0)
      ∧ (t.phase.tick % 2 ^ s.params.planeExp = 0 ∨ t.phase.tick % 2 ^ s.params.blinkExp = 0)
      ∧ (∀ n, s.phase.tick < n → (n < t.phase.tick ∨ (t.phase.tick = 0 ∧ n < 512)) →
          n % 2 ^ s.params.planeExp ≠ 0 ∧ n % 2 ^ s.params.blinkExp ≠ 0)
      ∧ t.phase.plane = (if t.phase.tick % 2 ^ s.params.planeExp = 0 then !s.phase.plane else s.phase.plane)
      ∧ t.phase.blink = (if t.phase.tick % 2 ^ s.params.blinkExp = 0 then !s.phase.blink else s.phase.blink)
      ∧ t.phase.seq = (s.phase.seq + 1) % 65536 ∧ t.phase.blankAll = s.phase.blankAll
      ∧ t.journey = { s.journey with phase := t.phase.facts }

/-! ### Transfers -/

/-- A transfer's arrival (R121, R122, R138): a line the space does not have and a form no transfer has stop it; a port that is
free answers FAULT at once, with nothing else changed, while RESET is asserted, for a transfer past word 7, a panel write, and
a write to a window aperture; any other transfer is held for its take-up. -/
def Obligations.ArrivalRefusedOrHeld : Prop :=
  (∀ (s : State) (t : Transfer), 2097151 < t.line → exec (.transferArrival t) s = .fault .noSuchLine)
  ∧ (∀ (s : State) (t : Transfer), t.line ≤ 2097151 → t.formOk = false →
    exec (.transferArrival t) s = .refused .notATransfer)
  ∧ (∀ (s : State) (t : Transfer), t.line ≤ 2097151 → t.formOk = true → s.portBusy t.port = false →
    ∃ u, exec (.transferArrival t) s = .next u ∧ u = { s with router := u.router }
      ∧ ((s.pins.reset = true ∨ 8 < t.first + t.count ∨ (t.write = true ∧ t.port = .panel)
            ∨ (t.write = true ∧ (s.windowAt t.line).isSome = true)) →
          u.router = (match t.port with
            | .coach => { s.router with coachAnswer := some .fault }
            | .panel => { s.router with panelAnswer := some .fault }))
      ∧ (¬ (s.pins.reset = true ∨ 8 < t.first + t.count ∨ (t.write = true ∧ t.port = .panel)
            ∨ (t.write = true ∧ (s.windowAt t.line).isSome = true)) →
          (match t.port with
            | .coach => u.coachArrived = some t ∧ u.router = { s.router with coach := u.router.coach, coachAnswer := none }
            | .panel => u.panelArrived = some t ∧ u.router = { s.router with panel := u.router.panel, panelAnswer := none })))

/-- Take-up of a coach computer read, at the line it reaches: its own, and in a window the current target's line, none past the end
of ROUTE_STRIP or without a target (R108 to R112): with no line, zero words; with every word held, the Line Store's newest data,
without the memory port (R100, R125), with REPORT_READ for a REPORT line and then COACH_TRANSFER, which releases the Position read
latch at word 7 of its line (R131, R167, R169, R170); otherwise the read asks for the port at that line, and whether it is compared
with the store at its grant is settled here (log 41). The lock rules of R144 to R146 are those of a transfer answered, or of one
that asks. A part fetch late for a grant stands beside the other requests from then on (R140, R145; log 39). -/
def Obligations.CoachReadAnsweredOrAsks : Prop :=
  (∀ (s : State) (c : CoachTx) (data : List Word), s.router.coach = some c → c.moment = .arrived → c.t.write = false →
    s.router.posts = [] →
    ((s.coachLine c.t.line = none ∧ data = List.replicate c.t.count 0)
      ∨ ∃ l e, s.coachLine c.t.line = some l ∧ s.mapped = true ∧ heldEntry s.store l = some e
          ∧ c.t.first + c.t.count ≤ e.width
          ∧ data = (List.range c.t.count).map fun i => e.newest.getD (c.t.first + i) 0) →
    ∃ t, exec .coachRead s = .next t ∧ t.windows = s.windows ∧ t.journey = s.journey
      ∧ t.path = { s.path with
          router := { s.router with coach := none, commit := none, coachAnswer := some (.done data) }
          arb := s.arb.afterAnswer c.t.lock }
      ∧ t.reported =
          (((s.coachLine c.t.line).bind s.reportIndex).elim s.report fun i =>
              s.report.readLine i c.t.first c.t.count).facts.coachTransfer
            (decide ((s.coachLine c.t.line).bind s.reportIndex = some 2 ∧ c.t.first ≤ 7 ∧ 7 < c.t.first + c.t.count)))
  ∧ (∀ (s : State) (c : CoachTx) (l : Nat), s.router.coach = some c → c.moment = .arrived → c.t.write = false →
    s.router.posts = [] → s.coachLine c.t.line = some l →
    (s.mapped = true → ∀ e, heldEntry s.store l = some e → e.width < c.t.first + c.t.count) →
    ∃ t, exec .coachRead s = .next t ∧ t.windows = s.windows ∧ t.journey = s.journey
      ∧ t.path = { s.path with
          router := { s.router with
            coach := some
              { t := c.t, moment := .waiting, kind := .read (s.reportIndex l) s.mapped
                req := { write := false, line := l, first := c.t.first, count := c.t.count, words := c.t.words } } }
          arb := s.arb.afterAsking c.t.lock }
      ∧ t.reported = s.reported.afterAsking s.arb c.t.lock)
  ∧ (∀ (s : State) (line : Nat),
    (s.windowAt line = none → s.coachLine line = some line)
    ∧ ∀ (w : Win) (k : Nat), s.windowAt line = some w → line = (s.windowAperture w).base + k →
        s.coachLine line = (s.targetOf w).bind fun x =>
          if w = .route ∧ s.router.map.routeStrip.base + s.router.map.routeStrip.len ≤ x + k then none else some (x + k))

/-- Take-up of a coach computer write that is neither posted nor a commit (R102, R104, R125): with every word held it is answered
DONE, with COACH_TRANSFER (R131); otherwise the words that are not held, the passing part, ask for the port. When nothing waits to
be composed, the held words take the write's named byte lanes and every other entry of the store stands (under the law of the
Line Store, which every step keeps); a write with no held word leaves the whole store as it stands. -/
def Obligations.CoachWriteMergedOrPassed : Prop :=
  ∀ (s : State) (c : CoachTx), s.router.coach = some c → c.moment = .arrived → c.t.write = true → c.t.formOk = true →
    s.router.posts = [] → s.isPosted c.t = false → s.commitKind c.t = none → s.windowAt c.t.line = none →
    ∃ t, exec .coachWrite s = .next t ∧ t.windows = s.windows ∧ t.journey = s.journey
      ∧ (s.heldCount c.t = c.t.count →
          t.path = { s.path with
            router := { s.router with coach := none, commit := none, coachAnswer := some (.done []) }
            arb := s.arb.afterAnswer c.t.lock }
          ∧ t.reported = s.reported.coachTransfer false)
      ∧ (s.heldCount c.t ≠ c.t.count →
          t.path = { s.path with
            router := { s.router with
              coach := some
                { t := c.t, moment := .waiting, kind := s.writeKind c.t
                  req :=
                    { write := true, line := c.t.line, first := c.t.first + s.heldCount c.t
                      count := c.t.count - s.heldCount c.t, words := c.t.words.drop (s.heldCount c.t) } } }
            arb := s.arb.afterAsking c.t.lock }
          ∧ t.reported = s.reported.afterAsking s.arb c.t.lock)
      ∧ (s.quiet → ¬ (s.arb.locked = true ∧ 16 ≤ s.arb.count) → s.TakesHeldWords t c.t)

/-- Take-up of a posted write with room in the Post Buffer (R132, R133): its passing words enter at the tail and it is answered
DONE at once, with COACH_TRANSFER (R131). When nothing waits to be composed, its held words are merged into the Line Store's newest
data by byte lane (R102), and every other entry stands; a write with no held word leaves the whole store as it stands. -/
def Obligations.PostedWriteEntersBuffer : Prop :=
  ∀ (s : State) (c : CoachTx), s.router.coach = some c → c.moment = .arrived → c.t.write = true → s.isPosted c.t = true →
    s.router.posts.length < 4 →
    ∃ t, exec .postedWrite s = .next t ∧ t.windows = s.windows ∧ t.journey = s.journey
      ∧ t.path = { s.path with
          router := { s.router with
            coach := none, commit := none, coachAnswer := some (.done [])
            posts := s.router.posts ++
              [{ line := c.t.line, first := c.t.first + s.heldCount c.t, words := c.t.words.drop (s.heldCount c.t) }] }
          arb := s.arb.afterAnswer false }
      ∧ t.reported = s.reported.coachTransfer false
      ∧ (s.quiet → c.t.formOk = true → s.TakesHeldWords t c.t)

/-- Take-up of a commit (R128, R150, R145): with eight records in the queue it is answered RETRY at once, which ends a locked
sequence, INTAKE_RETRY is set and counted, and nothing else changes; with room it becomes the commit in progress, a place is
reserved, and its whole write asks for the port. -/
def Obligations.CommitRetriedOrAccepted : Prop :=
  ∀ (s : State) (c : CoachTx) (k : RecKind), s.router.coach = some c → c.moment = .arrived → s.router.posts = [] →
    s.commitKind c.t = some k →
    ∃ t, exec .commit s = .next t ∧ t.windows = s.windows ∧ t.journey = s.journey
      ∧ (8 ≤ s.intake.queue.length →
          t.path = { s.path with
            router := { s.router with coach := none, commit := none, coachAnswer := some .retry }
            arb := if s.arb.locked then { s.arb with locked := false, count := 0, idle := none, fetchLate := false } else s.arb }
          ∧ t.reported = ((s.reported.withFactor .intakeRetry).withCount .intakeRetry).coachTransfer false)
      ∧ (s.intake.queue.length < 8 →
          t.path = { s.path with
            router := { s.router with
              coach := some
                { t := c.t, moment := .waiting, kind := .commit
                  req := { write := c.t.write, line := c.t.line, first := c.t.first, count := c.t.count, words := c.t.words } }
              commit := some
                { line := c.t.line, kind := k, slot := c.t.line - (s.router.map.ofRecKind k).base, lock := c.t.lock
                  fetching := false } }
            intake := { s.intake with reserved := true }
            arb := s.arb.afterAsking c.t.lock }
          ∧ t.reported = s.reported.afterAsking s.arb c.t.lock)

/-- Take-up of a panel read outside the windows (R100, R126, R134): it waits for the posts up to the last that names its line; with
none it is answered from the Line Store when every word is held, and otherwise asks for the port; whether it is compared with the
store at its grant is settled here (log 41). A part fetch late for a grant stands beside the other requests from then on (R140,
R145; log 39). -/
def Obligations.PanelReadTakenUp : Prop :=
  ∀ (s : State) (p : PanelTx), s.router.panel = some p → p.moment = .arrived → s.windowAt p.t.line = none →
    ∃ t, exec .panelRead s = .next t ∧ t.windows = s.windows ∧ t.journey = s.journey ∧ t.reported = s.reported
      ∧ (∀ (before after : List Post) (q : Post), s.router.posts = before ++ q :: after → q.line = p.t.line →
          (∀ x ∈ after, x.line ≠ p.t.line) →
          ∃ p', t.path = { s.path with router := { s.router with panel := some p' }, arb := { s.arb with fetchLate := false } }
            ∧ p'.t = p.t
            ∧ p'.moment = .waiting ∧ p'.posts = before.length + 1 ∧ p'.req.line = p.t.line)
      ∧ ((∀ x ∈ s.router.posts, x.line ≠ p.t.line) →
          (∀ e, s.mapped = true → heldEntry s.store p.t.line = some e → p.t.first + p.t.count ≤ e.width →
            t.path = { s.path with
              router := { s.router with
                panel := none
                panelAnswer := some (.done ((List.range p.t.count).map fun i => e.newest.getD (p.t.first + i) 0)) }
              arb := { s.arb with fetchLate := false } })
          ∧ ((s.mapped = true → ∀ e, heldEntry s.store p.t.line = some e → e.width < p.t.first + p.t.count) →
            t.path = { s.path with
              router := { s.router with
                panel := some
                  { t := p.t, moment := .waiting, posts := 0
                    req := { write := p.t.write, line := p.t.line, first := p.t.first, count := p.t.count, words := p.t.words }
                    overlay := s.mapped, frees := none } }
              arb := { s.arb with fetchLate := false } }))

/-- Take-up of a panel read through a window (R109 to R114): a read of offset 0 latches the current target with a full timer, any
other uses the latched target, or the current one while FREE. The current target is the banner's as last handed, or ROUTE_STRIP
base plus the window base, min(max(0, c − 2), 36) for the CURRENT slot c and 36 less that under REVERSED (R110, R111). With no
target, or past the ROUTE_STRIP's end, zero words are answered at this take-up, whatever posts wait (the model's reading of R109,
log 34); otherwise the read is of that line: it waits for the posts up to the last that names the line (R134), is answered from the
Line Store when every word is held (R100), and asks else, its treatment settled here (log 41). A read of the last offset that is
answered here frees the latch (R114). A part fetch late for a grant stands beside the other requests from then on (R140, R145; log
39). -/
def Obligations.PanelReadThroughWindow : Prop :=
  ∀ (s : State) (p : PanelTx) (w : Win) (k : Nat) (target : Option Nat), s.router.panel = some p → p.moment = .arrived →
    s.windowAt p.t.line = some w → p.t.line = (s.windowAperture w).base + k →
    target = (if k = 0 then s.targetOf w else match s.windows.latch w with
      | some l => l.target
      | none => s.targetOf w) →
    ∃ t, exec .panelRead s = .next t ∧ t.journey = s.journey ∧ t.reported = s.reported
      ∧ t.path = { s.path with router := t.router, arb := { s.arb with fetchLate := false } }
      ∧ t.windows.latch w =
          (if k + 1 = (s.windowAperture w).len ∧ t.router.panel = none then none
          else if k = 0 then some { target := s.targetOf w, timer := 50 } else s.windows.latch w)
      ∧ (target = none → t.router = { s.router with panel := none, panelAnswer := some (.done (List.replicate p.t.count 0)) })
      ∧ (∀ x, target = some x → w = .route → s.router.map.routeStrip.base + s.router.map.routeStrip.len ≤ x + k →
          t.router = { s.router with panel := none, panelAnswer := some (.done (List.replicate p.t.count 0)) })
      ∧ (∀ x, target = some x → (w = .route → x + k < s.router.map.routeStrip.base + s.router.map.routeStrip.len) →
          (∀ (before after : List Post) (q : Post), s.router.posts = before ++ q :: after → q.line = x + k →
            (∀ y ∈ after, y.line ≠ x + k) →
            t.router = { s.router with panel := some (p.askingAt s w (x + k) (before.length + 1)) })
          ∧ ((∀ q ∈ s.router.posts, q.line ≠ x + k) →
            (∀ e, heldEntry s.store (x + k) = some e → p.t.first + p.t.count ≤ e.width →
              t.router = { s.router with
                panel := none
                panelAnswer := some (.done ((List.range p.t.count).map fun i => e.newest.getD (p.t.first + i) 0)) })
            ∧ ((∀ e, heldEntry s.store (x + k) = some e → e.width < p.t.first + p.t.count) →
              t.router = { s.router with panel := some (p.askingAt s w (x + k) 0) })))

/-- The grant at a free port goes to the first standing request in the order of R140 and R141: within a locked sequence the coach
computer's transfer or its commit fetch alone, each counted (R144); otherwise the part fetch, the panel port's request (for the
head post it waits behind, or itself), and then the coach computer's traffic or the write-back, by urgency and the last-grant flag.
A part fetch that came after the answer that freed the port (R139; the order is a free value, log 39) waits while another request
that stands is granted, a panel read between a commit's write and its fetch too (R128, R146). A read captures its words at the
grant, the newest data of the entry that covers them or memory's (R99, R101, R139), one fully covered by then too (log 37), and by
the treatment that its take-up gave it in an earlier part state (log 41); a write-back carries the entry's data as it stands, every
lane named, and its entry is WRITING with that data (R95); it stands as soon as its conditions hold (log 42). A granted write
reaches memory at its answer (log 10). -/
def Obligations.GrantFollowsOrder : Prop :=
  ∀ s : State, s.arb.port = none → s.pins.reset = false →
    ∃ t, exec .grant s = .next t ∧ t.mem = s.mem ∧ t.intake = s.intake ∧ t.windows = s.windows ∧ t.journey = s.journey
      ∧ (s.arb.locked = true →
          (∀ c, s.coachStands = some c →
            t.arb = { s.arb with
              port := some { owner := .coach, req := c.req, data := s.captured c }
              count := s.arb.count + 1, lastStore := false, fetchLate := false })
          ∧ (∀ k, s.coachStands = none → s.fetchStands = some k →
            t.arb = { s.arb with
              port := some { owner := .commitFetch, req := lineRead k.line, data := s.wordsNow false (lineRead k.line) }
              count := s.arb.count + 1, fetchLate := false })
          ∧ (s.coachStands = none → s.fetchStands = none → t.arb = s.arb))
      ∧ (s.arb.locked = false →
          (∀ k, ¬ s.FetchWaits → s.fetchStands = some k →
            t.arb = { s.arb with
              port := some { owner := .commitFetch, req := lineRead k.line, data := s.wordsNow false (lineRead k.line) }
              fetchLate := false })
          ∧ (∀ n, ¬ s.FetchWaits → s.fetchStands = none → s.profileStands = some n →
              t.arb = { s.arb with
                port := some
                  { owner := .profileLine false, req := lineRead (s.loader.base + n)
                    data := s.wordsNow false (lineRead (s.loader.base + n)) }
                fetchLate := false })
          ∧ (∀ p, (s.FetchWaits ∨ (s.fetchStands = none ∧ s.profileStands = none)) → s.panelStands = some p →
              (p.posts = 0 →
                t.arb = { s.arb with
                  port := some { owner := .panel, req := p.req, data := s.wordsNow p.overlay p.req }, fetchLate := false })
              ∧ (∀ h rest, p.posts ≠ 0 → s.router.posts = h :: rest →
                  t.arb = { s.arb with port := some { owner := .post, req := h.req, data := [] }, lastStore := false, fetchLate := false }))
          ∧ ((s.FetchWaits ∨ (s.fetchStands = none ∧ s.profileStands = none)) → s.panelStands = none →
              (∀ e, s.storeStands = some e →
                ((s.coachStands = none ∧ s.router.posts = []) ∨ 24 ≤ s.store.length ∨ s.arb.lastStore = false) →
                t.arb = { s.arb with
                  port := some
                    { owner := .writeback
                      req :=
                        { write := true, line := e.line, first := 0, count := e.width
                          words := e.data.map fun w => { data := w, lanes := BitVec.allOnes 4 } }
                      data := [] }
                  lastStore := true, fetchLate := false }
                ∧ ∃ e', heldEntry t.store e.line = some e' ∧ e'.writing = true ∧ e'.data = e.data)
              ∧ ((s.storeStands = none ∨ (s.store.length < 24 ∧ s.arb.lastStore = true)) →
                  (∀ c, s.coachStands = some c →
                    t.arb = { s.arb with
                      port := some { owner := .coach, req := c.req, data := s.captured c }, lastStore := false, fetchLate := false })
                  ∧ (∀ h rest, s.coachStands = none → s.router.posts = h :: rest →
                      t.arb = { s.arb with port := some { owner := .post, req := h.req, data := [] }, lastStore := false, fetchLate := false })
                  ∧ (s.coachStands = none → s.router.posts = [] → s.storeStands = none → t.arb = s.arb))))

/-- What the memory's answer writes (R121, R133, R135): a write answered DONE sets exactly the named byte lanes of its words, at
byte addresses line × 32 + word × 4 + lane. That what a failed one leaves is confined to the bytes of its words is the model's
choice (log 4). Memory is of the canonical form, which every step keeps. -/
def Obligations.WriteSetsNamedLanes : Prop :=
  ∀ (m : Memory) (line first : Nat) (ws : List WWord), m.wf = true →
    (∀ i lane ww, ws[i]? = some ww → lane < 4 →
      (m.writeWords line first ws).read (line * 32 + (first + i) * 4 + lane) =
        if ww.lanes.getLsbD lane then laneByte ww.data lane else m.read (line * 32 + (first + i) * 4 + lane))
    ∧ (∀ a, (a < line * 32 + first * 4 ∨ line * 32 + (first + ws.length) * 4 ≤ a) →
      (m.writeWords line first ws).read a = m.read a)
    ∧ (∀ f a, (a < line * 32 + first * 4 ∨ line * 32 + (first + ws.length) * 4 ≤ a) →
      (m.scribble f (line * 32 + first * 4) (4 * ws.length)).read a = m.read a)

/-- The memory answers a passing read or write of the coach computer, or answers FAULT to any passing transfer of it, or answers a
panel read (R125, R126, R135): the port is free, a write answered DONE is in memory, and the answer goes upstream as it came, with
the data captured at the grant; COACH_TRANSFER is handed for the coach computer's, and it releases the Position read latch for a
read of that line with word 7 (R131, R169). The answer to the read of a window's last offset frees the latch (R114), a FAULT too,
in a window of one line as well (the model's reading of R114 beside R135, log 40). What a failed write leaves in the bytes of its
words is free (log 4). -/
def Obligations.PassingTransferAnswered : Prop :=
  (∀ (s : State) (p : Presented) (c : CoachTx) (ok : Bool), s.arb.port = some p → p.owner = .coach →
    s.router.coach = some c →
    (c.kind = .write ∨ (∃ i o, c.kind = .read i o) ∨ (ok = false ∧ (c.kind = .ack ∨ c.kind = .profile))) →
    ∃ t, exec (.passingTransferAnswer ok) s = .next t ∧ t.windows = s.windows ∧ t.journey = s.journey
      ∧ t.router = { s.router with
          coach := none, commit := none, coachAnswer := some (if ok then .done p.data else .fault) }
      ∧ t.intake = s.intake ∧ t.loader = s.loader
      ∧ t.arb = ({ s.arb with port := none } : Arbiter).answered c.t.lock
      ∧ (p.req.write = false → t.mem = s.mem)
      ∧ (p.req.write = true → ok = true → t.mem = s.mem.writeWords p.req.line p.req.first p.req.words)
      ∧ (p.req.write = true → ok = false →
          ∃ f, t.mem = s.mem.scribble f (p.req.line * 32 + p.req.first * 4) (4 * p.req.words.length))
      ∧ t.reported = s.reported.coachTransfer
          (match c.kind with
            | .read (some 2) _ => decide (c.req.first ≤ 7 ∧ 7 < c.req.first + c.req.count)
            | _ => false))
  ∧ (∀ (s : State) (p : Presented) (x : PanelTx) (ok : Bool), s.arb.port = some p → p.owner = .panel →
    s.router.panel = some x →
    ∃ t, exec (.passingTransferAnswer ok) s = .next t ∧ t.journey = s.journey ∧ t.reported = s.reported
      ∧ t.path = { s.path with
          router := { s.router with panel := none, panelAnswer := some (if ok then .done p.data else .fault) }
          arb := { s.arb with port := none } }
      ∧ (∀ w, x.frees = some w → t.windows.latch w = none)
      ∧ (x.frees = none → t.windows = s.windows))

/-- The memory answers the head post (R133, R134): it leaves the buffer, its words are in memory with their lanes when DONE, and a
FAULT sets and counts POSTED_FAULT, the bytes it leaves in its words being free (log 4); a panel read that waited for several posts
waits for one fewer, and one that waited for this post alone is answered from the Line Store when every word is held (R100), its
window's latch freed (R114), and otherwise asks for the port, by the treatment of its take-up (log 41). -/
def Obligations.PostAnswered : Prop :=
  ∀ (s : State) (p : Presented) (ok : Bool), s.arb.port = some p → p.owner = .post → p.req.write = true →
    ∃ t, exec (.postAnswer ok) s = .next t ∧ t.journey = s.journey
      ∧ t.router.posts = s.router.posts.drop 1 ∧ t.arb = { s.arb with port := none } ∧ t.intake = s.intake
      ∧ t.loader = s.loader ∧ t.router.coach = s.router.coach ∧ t.router.coachAnswer = s.router.coachAnswer
      ∧ (ok = true → t.mem = s.mem.writeWords p.req.line p.req.first p.req.words ∧ t.reported = s.reported)
      ∧ (ok = false →
          (∃ f, t.mem = s.mem.scribble f (p.req.line * 32 + p.req.first * 4) (4 * p.req.words.length))
          ∧ t.reported = (s.reported.withFactor .postedFault).withCount .postedFault)
      ∧ (∀ x, s.router.panel = some x → 1 < x.posts → t.router.panel = some { x with posts := x.posts - 1 })
      ∧ (∀ x, s.router.panel = some x → x.posts = 1 →
          (∀ e, x.overlay = true → heldEntry s.store x.req.line = some e → x.req.first + x.req.count ≤ e.width →
            t.router.panel = none
            ∧ t.router.panelAnswer =
                some (.done ((List.range x.req.count).map fun i => e.newest.getD (x.req.first + i) 0))
            ∧ (∀ w, x.frees = some w → t.windows.latch w = none) ∧ (x.frees = none → t.windows = s.windows))
          ∧ ((x.overlay = true → ∀ e, heldEntry s.store x.req.line = some e → e.width < x.req.first + x.req.count) →
            t.router.panel = some { x with posts := 0 } ∧ t.router.panelAnswer = s.router.panelAnswer
            ∧ t.windows = s.windows))
      ∧ ((∀ x, s.router.panel = some x → x.posts = 0) → t.router.panel = s.router.panel ∧ t.windows = s.windows)

/-- The memory answers a commit's write (R128, R146, R151): DONE puts it in memory and makes the commit fetch stand, with the cap
of R146 seen to; where another request stands then and no sequence goes on, whether the fetch comes before or after the answer that
frees the port is free (R139; log 39), and after it the other is granted first; FAULT answers the commit FAULT, frees the reserved
place, and hands no BAD_RECORD, the bytes it leaves in its words being free (log 4). -/
def Obligations.CommitWriteAnswered : Prop :=
  ∀ (s : State) (p : Presented) (c : CoachTx) (k : Commit) (ok : Bool), s.arb.port = some p → p.owner = .coach →
    p.req.write = true → s.router.coach = some c → c.kind = .commit → s.router.commit = some k →
    ∃ t, exec (.commitWriteAnswer ok) s = .next t ∧ t.windows = s.windows ∧ t.journey = s.journey
      ∧ (ok = true →
          t.path = { s.path with
            mem := s.mem.writeWords p.req.line p.req.first p.req.words
            router := { s.router with commit := some { k with fetching := true }, coach := some { c with moment := .waiting } }
            free := s.free + 1
            arb :=
              if s.arb.locked = true ∧ 16 ≤ s.arb.count then
                { s.arb with port := none, locked := false, count := 0, idle := none, fetchLate := t.arb.fetchLate }
              else { s.arb with port := none, fetchLate := t.arb.fetchLate } }
          ∧ (s.arb.locked = true → s.arb.count < 16 → t.arb.fetchLate = false)
          ∧ (t.arb.fetchLate = true → t.arb.locked = false ∧ ({ s with router := t.router } : State).OtherStands)
          ∧ t.reported = s.reported.afterAsking s.arb k.lock)
      ∧ (ok = false →
          t.router = { s.router with coach := none, commit := none, coachAnswer := some .fault }
          ∧ t.intake = { s.intake with reserved := false }
          ∧ (∃ f, t.mem = s.mem.scribble f (p.req.line * 32 + p.req.first * 4) (4 * p.req.words.length))
          ∧ t.reported = s.reported.coachTransfer false)

/-- The memory answers a commit fetch (R128, R151, R152): the reserved place becomes free; DONE answers the commit DONE, with the
record at the queue's tail when its check passes and BAD_RECORD with the check's reason when it fails; FAULT answers it FAULT,
with BAD_RECORD and reason FETCH_FAULT. The check of a record line goes by the tables of R153 to R155 at the places of R184: the
first row whose fault it finds gives the reason, and without one the record carries its fields, those out of range held under
LENIENT. -/
def Obligations.CommitFetchAnswered : Prop :=
  (∀ (s : State) (p : Presented) (c : CoachTx) (k : Commit) (ok : Bool), s.arb.port = some p → p.owner = .commitFetch →
    s.router.coach = some c → s.router.commit = some k →
    ∃ t, exec (.commitFetchAnswer ok) s = .next t ∧ t.windows = s.windows ∧ t.journey = s.journey ∧ t.mem = s.mem
      ∧ t.router = { s.router with coach := none, commit := none, coachAnswer := some (if ok then .done [] else .fault) }
      ∧ t.arb = ({ s.arb with port := none } : Arbiter).answered c.t.lock
      ∧ (∀ x, ok = true → checkRecord s.router.map s.loader.profile.seatCount k.kind p.data = .ok x →
          t.intake = { queue := s.intake.queue ++ [{ slot := k.slot, contents := x }], reserved := false }
            ∧ t.reported = s.reported.coachTransfer false)
      ∧ (∀ why, ok = true → checkRecord s.router.map s.loader.profile.seatCount k.kind p.data = .error why →
          t.intake = { s.intake with reserved := false }
            ∧ t.reported = (s.reported.withBad why k.kind k.slot).coachTransfer false)
      ∧ (ok = false →
          t.intake = { s.intake with reserved := false }
            ∧ t.reported = (s.reported.withBad .fetchFault k.kind k.slot).coachTransfer false))
  ∧ (∀ (m : Apertures) (seatCount : Nat) (ws : List Word),
      CheckedBy (routeRows m.route.lenient ws) (routeHeld ws) (checkRecord m seatCount .route ws)
      ∧ CheckedBy (reservationRows seatCount ws) (reservationHeld ws) (checkRecord m seatCount .reservation ws)
      ∧ CheckedBy (messageRows m.message.lenient ws) (messageHeld ws) (checkRecord m seatCount .message ws))

/-- The memory answers a profile line read (R174 to R178): lines 0 to 2 add to the fetch; the fourth ends it with the check, and a
block that passes makes the part ACTIVE under its profile while one that fails makes it PASSIVE, as a FAULT does; the answer of a
discarded fetch frees the port, with the read of line 0 presented. Where another request stands then and no locked sequence goes
on, whether a read so presented comes before or after the answer that frees the port is free (R139; log 39). On entry to ACTIVE
every strip line, every composed seat and the six REPORT lines become pending (R26, R61, R84, R120, R164, R177); in PASSIVE every
block has its values after a reload (R178). That both entries turn the Position read latch OFF (R171 has it OFF after a reload; log
17), and that the empty map of PASSIVE holds the open region as not posted (log 38), are the model's choices. A block passes
exactly by the eight conditions of R175, and its profile holds the apertures with their lengths held, the seat count and the
parameters at the places of R183, by R27 and R176. -/
def Obligations.ProfileLineAnswered : Prop :=
  (∀ (s : State) (p : Presented), s.arb.port = some p → p.owner = .profileLine true →
    ∀ ok,
      (s.loader.fetch = none → exec (.profileLineReadAnswer ok) s = .next { s with arb := { s.arb with port := none } })
      ∧ (s.loader.fetch ≠ none →
        ∃ late : Bool, exec (.profileLineReadAnswer ok) s =
            .next { s with arb := { s.arb with port := none, fetchLate := late }, free := s.free + 1 }
          ∧ (late = true → s.arb.locked = false ∧ s.OtherStands)))
  ∧ (∀ (s : State) (p : Presented) (ws : List Word) (ok : Bool), s.arb.port = some p → p.owner = .profileLine false →
    s.loader.fetch = some ws →
    ∃ t, exec (.profileLineReadAnswer ok) s = .next t ∧ t.mem = s.mem
      ∧ t.arb = { s.arb with port := none, fetchLate := t.arb.fetchLate }
      ∧ ((ok = false ∨ 32 ≤ (ws ++ p.data).length) → t.arb.fetchLate = s.arb.fetchLate ∧ t.free = s.free)
      ∧ t.router.posts = s.router.posts ∧ t.router.coach = s.router.coach ∧ t.router.panel = s.router.panel
      ∧ t.loader.base = s.loader.base
      ∧ (ok = true → (ws ++ p.data).length < 32 → t.loader = { s.loader with fetch := some (ws ++ p.data) }
          ∧ t.free = s.free + 1 ∧ (t.arb.fetchLate = true → s.arb.locked = false ∧ s.OtherStands)
          ∧ t.router = s.router ∧ t.intake = s.intake ∧ t.windows = s.windows ∧ t.journey = s.journey
          ∧ t.reported = s.reported)
      ∧ (ok = true → 32 ≤ (ws ++ p.data).length → profilePasses s.loader.base (ws ++ p.data) = true →
          t.loader = { base := s.loader.base, part := .active, profile := profileOf (ws ++ p.data) }
          ∧ t.router.map = profileApertures (ws ++ p.data) ∧ t.intake = {} ∧ t.windows = {}
          ∧ t.route.progress = .noRoute ∧ t.route.table = List.replicate 48 none ∧ t.seats.pool = []
          ∧ t.notices.queue = [] ∧ t.odo.position = 0 ∧ t.odo.doorLevel = s.odo.doorLevel
          ∧ t.report.cause = some (if s.loader.part = .loading then .start else .reload)
          ∧ t.report.factors = s.report.factors ∧ t.reported = { s.reported with cause := t.report.cause, latch := none }
          ∧ ∃ u : State, t = u.settle ∧ u.store = s.store
            ∧ u.route = { stripPending := List.range u.router.map.routeStrip.len }
            ∧ u.seats = { pending := u.everySeat }
            ∧ u.notices = { chimeTimer := s.notices.chimeTimer, bannerPending := true } ∧ u.phase = { pending := true }
            ∧ u.odo = { doorLevel := s.odo.doorLevel, doorCount := s.odo.doorCount, wheelLevel := s.odo.wheelLevel }
            ∧ u.report.pendEvent = true ∧ u.report.pendCounter = true ∧ u.report.pendPosition = true
            ∧ u.report.pendArrival = true)
      ∧ ((ok = false ∨ (32 ≤ (ws ++ p.data).length ∧ profilePasses s.loader.base (ws ++ p.data) = false)) →
          t.loader = { base := s.loader.base, part := .passive, profile := s.loader.profile } ∧ t.router.map = {}
          ∧ t.route = {} ∧ t.seats = {} ∧ t.notices = { chimeTimer := s.notices.chimeTimer } ∧ t.phase = {} ∧ t.intake = {}
          ∧ t.windows = {}
          ∧ t.odo = { doorLevel := s.odo.doorLevel, doorCount := s.odo.doorCount, wheelLevel := s.odo.wheelLevel }
          ∧ t.store = s.store
          ∧ t.reported = { s.reported.withFactor .profileRejected with
              mask := s.report.mask ||| Factor.profileRejected.bit, latch := none }
          ∧ t.report.has .profileRejected = true ∧ t.notify = true))
  ∧ (∀ (base : Nat) (ws : List Word),
    (profilePasses base ws = true ↔ ProfileSound base ws)
    ∧ (profileOf ws).aps = profileApertures ws ∧ (profileOf ws).seatCount = field ws 1 8 8
    ∧ (profileOf ws).params = blockParams ws
    ∧ (profileApertures ws).openPosted = decide (field ws 1 16 1 = 1)
    ∧ ∀ i, i < 10 → (profileApertures ws).all[i]? = some
        { base := blockBase ws i, len := blockLen ws i, posted := decide (field ws (2 + i) 24 1 = 1)
          lenient := decide (field ws (2 + i) 25 1 = 1) })

/-- A write-back completes (R95 to R97): DONE puts the entry's data in memory, and the entry leaves or, with a successor, becomes
DIRTY with it at the youngest place; FAULT removes the entry with its successor, and WRITEBACK_FAULT is set and counted, which in
ACTIVE makes REPORT line 0 pending when the factor was clear, and line 1 unless the counter stood at its top (R160, R161, R165,
R166). In RELOADING the store found empty starts the profile fetch (R106, R179), whose first read, where another request stands and
no locked sequence goes on, comes before or after the answer that frees the port, a free value (R139; log 39). -/
def Obligations.WritebackCompletes : Prop :=
  ∀ (s : State) (p : Presented) (ok : Bool), s.arb.port = some p → p.owner = .writeback → p.req.write = true →
    ∃ t, exec (.writebackCompletion ok) s = .next t ∧ t.windows = s.windows ∧ t.journey = s.journey ∧ t.router = s.router
      ∧ t.intake = s.intake ∧ t.arb = { s.arb with port := none, fetchLate := t.arb.fetchLate }
      ∧ (t.loader.fetch = s.loader.fetch → t.arb.fetchLate = s.arb.fetchLate)
      ∧ (t.loader.fetch ≠ s.loader.fetch → t.arb.fetchLate = true → s.arb.locked = false ∧ t.OtherStands)
      ∧ (ok = true → t.mem = s.mem.writeWords p.req.line p.req.first p.req.words ∧ t.reported = s.reported)
      ∧ (ok = false → t.reported = (s.reported.withFactor .writebackFault).withCount .writebackFault)
      ∧ (ok = false → s.active = true →
          ∃ u : State, t = u.settle ∧ u.store = completeFault s.store
            ∧ (s.report.pendEvent = true ∨ s.report.has .writebackFault = false → u.report.pendEvent = true)
            ∧ (s.report.pendCounter = true ∨ s.report.counters.getD 3 0 < 65535 → u.report.pendCounter = true))
      ∧ (∀ (before after : List Entry) (e : Entry) (l : Nat), s.quiet → s.active = true → ok = false → StoreLaw s.store →
          s.store = before ++ e :: after → e.writing = true →
          l ≠ s.router.map.report.base → l ≠ s.router.map.report.base + 1 →
          heldEntry t.store l = if l = e.line then none else heldEntry s.store l)
      ∧ (∀ (before after : List Entry) (e : Entry), s.quiet → (ok = true ∨ s.active = false) →
          s.store = before ++ e :: after → e.writing = true →
          (∀ x ∈ before ++ after, x.writing = false) →
          t.store = before ++ after ++ (match e.succ with
            | some d => if ok then [{ e with data := d, writing := false, succ := none }] else []
            | none => []))
      ∧ (s.loader.part ≠ .reloading → t.loader = s.loader)
      ∧ (s.loader.part = .reloading → s.loader.drained = false →
          (t.store = [] → t.loader = { s.loader with drained := true, fetch := some [] })
          ∧ (t.store ≠ [] → t.loader = s.loader))

/-- The memory answers an acknowledge write DONE (R129, R162): each factor whose bit is one in a lane that word 0 names is cleared,
the mask takes word 1's bits in the lanes it names, and no counter changes; the write is answered DONE. In LOADING and PASSIVE no
ACK_WRITE is handed (R136, R163, R178), for a write taken up in RELOADING either (log 32): factors and mask stand. The row
PASSING_TRANSFER_ANSWER with DONE is the same moment (the model's choice, log 22). -/
def Obligations.AckWriteClearsFactors : Prop :=
  ∀ (s : State) (p : Presented) (c : CoachTx), s.arb.port = some p → p.owner = .coach → p.req.write = true →
    s.router.coach = some c → c.kind = .ack →
    exec (.passingTransferAnswer true) s = exec .ackWrite s
    ∧ ∃ t, exec .ackWrite s = .next t ∧ t.windows = s.windows ∧ t.journey = s.journey ∧ t.intake = s.intake
      ∧ t.router = { s.router with coach := none, commit := none, coachAnswer := some (.done p.data) }
      ∧ t.mem = s.mem.writeWords p.req.line p.req.first p.req.words
      ∧ t.arb = ({ s.arb with port := none } : Arbiter).answered c.t.lock
      ∧ t.report.counters = s.report.counters ∧ t.report.lastBad = s.report.lastBad
      ∧ (s.mapped = false → t.report.factors = s.report.factors ∧ t.report.mask = s.report.mask)
      ∧ (s.mapped = true → ∀ i, i < 14 → t.report.factors.getLsbD i = (s.report.factors.getLsbD i && !((wordAt c.t 0).any fun w =>
          w.data.getLsbD i && w.lanes.getLsbD (i / 8))))
      ∧ (s.mapped = true → ∀ i, i < 14 → t.report.mask.getLsbD i = (match wordAt c.t 1 with
          | some w => if w.lanes.getLsbD (i / 8) then w.data.getLsbD i else s.report.mask.getLsbD i
          | none => s.report.mask.getLsbD i))

/-- The memory answers a profile commit DONE (R130, R179): in ACTIVE and PASSIVE the part starts RELOADING with the queue discarded
and every factor and counter cleared; in RELOADING with the drain mark clear nothing more; with the mark set, and in LOADING, the
fetch restarts at line 0. Where another request stands then and no sequence goes on, whether the read of line 0 of a fetch so begun
comes before or after the answer that frees the port is free (R139; log 39). The row PASSING_TRANSFER_ANSWER with DONE is the same
moment (the model's choice, log 22). -/
def Obligations.ProfileCommitByPartState : Prop :=
  ∀ (s : State) (p : Presented) (c : CoachTx), s.arb.port = some p → p.owner = .coach → p.req.write = true →
    s.router.coach = some c → c.kind = .profile →
    exec (.passingTransferAnswer true) s = exec .profileCommit s
    ∧ ∃ t, exec .profileCommit s = .next t ∧ t.mem = s.mem.writeWords p.req.line p.req.first p.req.words
      ∧ t.router.coach = none ∧ t.router.coachAnswer = some (.done p.data) ∧ t.router.map = s.router.map
      ∧ t.arb = { (({ s.arb with port := none } : Arbiter).answered c.t.lock) with fetchLate := t.arb.fetchLate }
      ∧ (t.loader.fetch ≠ s.loader.fetch → t.loader.fetch ≠ none → t.arb.fetchLate = true → t.arb.locked = false ∧ t.OtherStands)
      ∧ (t.loader.fetch = s.loader.fetch ∨ t.loader.fetch = none →
          t.arb.fetchLate = (({ s.arb with port := none } : Arbiter).answered c.t.lock).fetchLate)
      ∧ t.loader.base = s.loader.base ∧ t.loader.profile = s.loader.profile
      ∧ t.odo = s.odo ∧ t.route.facts = s.route.facts ∧ t.seats.pool = s.seats.pool ∧ t.windows = s.windows
      ∧ ((s.loader.part = .active ∨ s.loader.part = .passive) →
          t.loader.part = .reloading ∧ t.intake = {} ∧ t.report.factors = 0 ∧ t.report.mask = BitVec.allOnes 14
            ∧ t.report.counters = List.replicate 14 0
            ∧ (s.store = [] → t.loader.drained = true ∧ t.loader.fetch = some [])
            ∧ (s.store ≠ [] → t.loader.drained = false ∧ t.loader.fetch = none))
      ∧ (s.loader.part = .reloading → s.loader.drained = false → t.loader = s.loader ∧ t.intake = s.intake)
      ∧ ((s.loader.part = .loading ∨ (s.loader.part = .reloading ∧ s.loader.drained = true)) →
          t.loader = { s.loader with fetch := some [] } ∧ t.intake = s.intake)

/-- A transfer that RESET found presented to memory finishes (R138, R148): a write has reached memory in its words and lanes, the
answer, DONE or FAULT, is not taken, the port is free, and nothing else changes. That the write reaches memory whole although the
memory may answer FAULT is how the model reads R138 (log 4). -/
def Obligations.AbandonedTransferFinishes : Prop :=
  ∀ (s : State) (p : Presented) (ok : Bool), s.arb.port = some p → p.owner = .abandoned →
    exec (.presentedTransferFinished ok) s =
      .next { s with
        mem := if p.req.write then s.mem.writeWords p.req.line p.req.first p.req.words else s.mem
        arb := { s.arb with port := none } }

/-! ### Records and messages -/

/-- ROUTE_RECORD, a CALL or PASS record that passes the checks of R4 and R5: its fields replace those of the slot, with the status
of R5; the target is reselected (R7); NO_ROUTE becomes PRE_JOURNEY with a CALL entry, and PRE_JOURNEY stays when a PASS record
replaces the only CALL entry (log 30); the journey does not end by it; every reservation is bound afresh (R49); the AUTO entry is
refreshed at a new or replaced TARGET (R75) and follows a new state (R74), and blank-all with the phase sequence follows it
(R117); the coach computer's notices stand; the slot's strip line, those of the other changed slots and every composed seat become
pending (R5, R25, R61). -/
def Obligations.RouteRecordApplied : Prop :=
  ∀ (s : State) (x : Nat) (f : RouteFields), RouteLaw s.route → s.head = some { slot := x, contents := .route f } →
    s.seats.pending = [] → s.route.stripPending = [] → x < 48 → s.route.progress ≠ .ended → s.route.pastEnd ≤ x →
    (∀ e, s.route.entry x = some e → e.status ≠ .passed ∧ e.status ≠ .missed) →
    (s.route.target = some x → f.kind = .call ∧ f.mask.getLsbD s.route.portion = true) →
    (∀ i e, s.route.entry i = some e → (i < x → e.post < f.post) ∧ (x < i → f.post < e.post)) →
    ∃ t u : State, exec .routeRecord s = .next t ∧ t = u.settle ∧ s.SlotLineJoins u x ∧ s.ChangedLinesJoin u
      ∧ u.seats.pending = s.everySeat
      ∧ t.path = s.popHead.path ∧ t.windows.rest = s.windows.rest
      ∧ s.Reselected t (decide (s.route.target = some x))
      ∧ t.route.entry x = some
          { code := f.code, kind := f.kind, post := f.post, arr := f.arr, dep := f.dep, side := f.side, mask := f.mask
            textBase := f.textBase
            status := afterSelect t.route.target x
              (if s.route.target = some x then .target
              else if f.mask.getLsbD s.route.portion = false then .notServed
              else if f.kind = .pass ∧ f.post * 1000 ≤ s.odo.position then .passed
              else .ahead) }
      ∧ (∀ i, i ≠ x →
          t.route.entry i = (s.route.entry i).map fun e => { e with status := afterSelect t.route.target i e.status })
      ∧ (s.route.progress.moving = false →
          t.route.progress = if s.route.progress = .noRoute ∧ f.kind = .call then .preJourney else s.route.progress)
      ∧ t.route.facts = { s.route.facts with table := t.route.table, progress := t.route.progress }
      ∧ t.route.progress ≠ .ended ∧ t.seats.pool = s.seats.pool.map (fun q => (q.1, q.2.bind t.route))
      ∧ s.PhaseFollows t (t.route.progress ≠ s.route.progress)
      ∧ s.NoticesFollow t (t.route.target ≠ s.route.target ∨ s.route.target = some x)

/-- A route record that R4 or R5 refuses, the first failed check giving the reason (STATE, PAST, IN_USE, ORDER): BAD_RECORD with
the reason and the slot, and nothing of the journey changes. -/
def Obligations.RouteRecordRefused : Prop :=
  ∀ (s : State) (c : Instr) (x : Nat) (r : Contents) (why : Reason), s.head = some { slot := x, contents := r } →
    ((c = .routeRecord ∧ ∃ f, r = .route f) ∨ (c = .routeRecordEmpty ∧ r = .routeEmpty)) →
    s.seats.pending = [] → s.route.stripPending = [] →
    ((s.route.progress = .ended ∧ why = .state)
      ∨ (s.route.progress ≠ .ended
          ∧ (x < s.route.pastEnd ∨ ∃ e, s.route.entry x = some e ∧ (e.status = .passed ∨ e.status = .missed)) ∧ why = .past)
      ∨ (s.route.progress ≠ .ended ∧ s.route.pastEnd ≤ x ∧ s.route.target = some x
          ∧ (r = .routeEmpty ∨ ∃ f, r = .route f ∧ (f.kind = .pass ∨ f.mask.getLsbD s.route.portion = false)) ∧ why = .inUse)
      ∨ (s.route.progress ≠ .ended ∧ s.route.pastEnd ≤ x
          ∧ (∀ e, s.route.entry x = some e → e.status ≠ .passed ∧ e.status ≠ .missed)
          ∧ (∃ f, r = .route f ∧ (s.route.target = some x → f.kind = .call ∧ f.mask.getLsbD s.route.portion = true)
            ∧ ∃ i e, s.route.entry i = some e ∧ ((i < x ∧ f.post ≤ e.post) ∨ (x < i ∧ e.post ≤ f.post))) ∧ why = .order)) →
    ∃ t, exec c s = .next t ∧ t.path = s.popHead.path ∧ t.windows = s.windows ∧ t.journey = s.journey
      ∧ t.reported = s.reported.withBad why .route x

/-- ROUTE_RECORD_EMPTY that passes R4 removes the slot's entry (R6): the target is reselected, and PRE_JOURNEY becomes NO_ROUTE
when the entry was the last CALL entry; the journey does not end by it; every reservation is bound afresh (R49); the AUTO entry
follows a new TARGET and a new state (R74, R75), blank-all and the phase sequence the state (R117), and the coach computer's
notices stand; the slot's strip line, those of the other changed slots and every composed seat become pending (R6, R25, R61); for
a slot that is already empty it changes nothing. -/
def Obligations.RouteRecordEmptyRemoves : Prop :=
  ∀ (s : State) (x : Nat), RouteLaw s.route → s.head = some { slot := x, contents := .routeEmpty } →
    s.seats.pending = [] → s.route.stripPending = [] → s.route.progress ≠ .ended → s.route.pastEnd ≤ x →
    (∀ e, s.route.entry x = some e → e.status ≠ .passed ∧ e.status ≠ .missed) → s.route.target ≠ some x →
    (s.route.entry x = none → s.TakesIdly .routeRecordEmpty)
    ∧ (∀ e, s.route.entry x = some e →
      ∃ t u : State, exec .routeRecordEmpty s = .next t ∧ t = u.settle ∧ s.SlotLineJoins u x ∧ s.ChangedLinesJoin u
        ∧ u.seats.pending = s.everySeat
        ∧ t.path = s.popHead.path ∧ t.windows.rest = s.windows.rest
        ∧ s.Reselected t false
        ∧ t.route.entry x = none
        ∧ (∀ i, i ≠ x →
            t.route.entry i = (s.route.entry i).map fun e => { e with status := afterSelect t.route.target i e.status })
        ∧ (s.route.progress = .preJourney → e.kind = .call →
            (∀ i e', i ≠ x → s.route.entry i = some e' → e'.kind = .pass) → t.route.progress = .noRoute)
        ∧ (s.route.progress.moving = false →
            (s.route.progress ≠ .preJourney ∨ e.kind = .pass
              ∨ ∃ i e', i ≠ x ∧ s.route.entry i = some e' ∧ e'.kind = .call) →
            t.route.progress = s.route.progress)
        ∧ t.route.facts = { s.route.facts with table := t.route.table, progress := t.route.progress }
        ∧ t.route.progress ≠ .ended ∧ t.seats.pool = s.seats.pool.map (fun q => (q.1, q.2.bind t.route))
        ∧ s.PhaseFollows t (t.route.progress ≠ s.route.progress) ∧ s.NoticesFollow t (t.route.target ≠ s.route.target))

/-- Reservation records (R45 to R47). A reserving record whose to stop lies in the route but not after its from stop is refused
with reason ORDER and changes nothing; any other becomes ACTIVE in its slot, bound, with SEAT_OVERLAP set and counted when it
intersects another of its seat beyond the reference stop. VOID makes its slot EMPTY. No other slot changes. In NO_ROUTE and ENDED
the manual gives no reference stop: there the overlap is the model's free value (log 6). A binding reads the Route Table's CALL
entries alone, whatever their statuses (R44): the from stop in the order of R3, the to stop above it, or in the order of R3 when
the from stop is unbound. -/
def Obligations.ReservationRecordsAct : Prop :=
  (∀ (s : State) (n : Nat) (x : Reservation), x.boundFrom = none → x.boundTo = none →
    s.head = some { slot := n, contents := .reserve x.seat x.fromCode x.toCode x.kind x.text } → s.seats.pending = [] →
    ((∃ i, s.route.bindCode x.fromCode = some i ∧ (∃ q ∈ s.route.entries, q.2.kind = .call ∧ q.2.code = x.toCode)
        ∧ ∀ q ∈ s.route.entries, q.2.kind = .call → q.2.code = x.toCode → q.1 ≤ i) →
      ∃ t, exec .reservationRecord s = .next t ∧ t.path = s.popHead.path ∧ t.windows = s.windows ∧ t.journey = s.journey
        ∧ t.reported = s.reported.withBad .order .reservation n)
    ∧ (¬ (∃ i, s.route.bindCode x.fromCode = some i ∧ (∃ q ∈ s.route.entries, q.2.kind = .call ∧ q.2.code = x.toCode)
        ∧ ∀ q ∈ s.route.entries, q.2.kind = .call → q.2.code = x.toCode → q.1 ≤ i) →
      ∃ t u : State, exec .reservationRecord s = .next t ∧ t.windows = s.windows ∧ t = u.settle
        ∧ (∀ m, m ∈ u.seats.pending ↔
            (m ∈ s.everySeat ∧ (m = x.seat ∨ ∃ old, s.seats.slot n = some old ∧ m = old.seat)))
        ∧ t.path = { s.popHead.path with free := if s.route.progress.blank then s.free + 1 else s.free }
        ∧ t.journey = { s.journey with pool := t.seats.pool }
        ∧ (∀ m, t.seats.slot m = if m = n then some (x.bind s.route) else s.seats.slot m)
        ∧ (t.reported = s.reported ∨ t.reported = (s.reported.withFactor .seatOverlap).withCount .seatOverlap)
        ∧ (∀ r, s.route.refEnd = some r →
            ((∃ a ∈ legs s.route t.seats x.seat, ∃ b ∈ legs s.route t.seats x.seat, a.slot = n ∧ b.slot ≠ n
                ∧ a.res.kind ≠ .blocked ∧ b.res.kind ≠ .blocked ∧ a.lo < b.hi ∧ b.lo < a.hi ∧ r ≤ a.hi ∧ r ≤ b.hi) →
              t.reported = (s.reported.withFactor .seatOverlap).withCount .seatOverlap)
            ∧ ((∀ a ∈ legs s.route t.seats x.seat, ∀ b ∈ legs s.route t.seats x.seat, ¬ (a.slot = n ∧ b.slot ≠ n
                ∧ a.res.kind ≠ .blocked ∧ b.res.kind ≠ .blocked ∧ a.lo < b.hi ∧ b.lo < a.hi ∧ r ≤ a.hi ∧ r ≤ b.hi)) →
              t.reported = s.reported))))
  ∧ (∀ (s : State) (n : Nat), s.head = some { slot := n, contents := .void } → s.seats.pending = [] →
    ∃ t u : State, exec .void s = .next t ∧ t.path = s.popHead.path ∧ t.windows = s.windows ∧ t.reported = s.reported
      ∧ t = u.settle ∧ (∀ m, m ∈ u.seats.pending ↔ (m ∈ s.everySeat ∧ ∃ old, s.seats.slot n = some old ∧ m = old.seat))
      ∧ t.journey = { s.journey with pool := t.seats.pool }
      ∧ ∀ m, t.seats.slot m = if m = n then none else s.seats.slot m)
  ∧ (∀ (r : Route) (x y : Reservation), y = x.bind r →
    y = { x with boundFrom := y.boundFrom, boundTo := y.boundTo }
    ∧ (∀ i, y.boundFrom = some i ↔ r.BindsTo x.fromCode i)
    ∧ (y.boundFrom = none ↔ ∀ i, ¬ r.CallAt x.fromCode i)
    ∧ (∀ f, y.boundFrom = some f →
        (∀ i, y.boundTo = some i ↔ f < i ∧ r.CallAt x.toCode i ∧ ∀ j, f < j → j < i → ¬ r.CallAt x.toCode j)
        ∧ (y.boundTo = none ↔ ∀ i, f < i → ¬ r.CallAt x.toCode i))
    ∧ (y.boundFrom = none →
        (∀ i, y.boundTo = some i ↔ r.BindsTo x.toCode i) ∧ (y.boundTo = none ↔ ∀ i, ¬ r.CallAt x.toCode i)))

/-- POSITION_FIX (R33, R21): the position becomes P metres with a remainder of 0, the estimate is invalid, a jump beyond the fix
tolerance sets and counts FIX_JUMP; outside NO_ROUTE and ENDED the timing points above CURRENT follow the new position, their strip
lines become pending (R25), and a moving state is re-derived; a new state is followed by the AUTO entry (R74), blank-all
(R117) and, at ENDED, the expiry of R56; the coach computer's notices stand. -/
def Obligations.PositionFixSets : Prop :=
  ∀ (s : State) (n p : Nat), s.head = some { slot := n, contents := .message (.positionFix p) } →
    ∃ t u : State, exec .positionFix s = .next t ∧ t = u.settle ∧ s.ChangedLinesJoin u ∧ t.path = s.popHead.path
      ∧ t.windows.rest = s.windows.rest
      ∧ t.odo = { s.odo with position := p * 1000, remUm := 0, est := {} }
      ∧ (s.params.fixTol * 1000 < gap (p * 1000) s.odo.position →
          t.report.has .fixJump = true ∧ t.report.counters = raised .fixJump s.report.counters)
      ∧ (gap (p * 1000) s.odo.position ≤ s.params.fixTol * 1000 →
          t.report.has .fixJump = s.report.has .fixJump ∧ t.report.counters = s.report.counters)
      ∧ (∀ i, t.route.entry i = (s.route.entry i).map fun e => { e with status :=
          if s.route.progress.blank = false ∧ (∀ c, s.route.current = some c → c < i) ∧ e.kind = .pass
              ∧ (e.status = .ahead ∨ e.status = .passed) then
            (if e.post * 1000 ≤ p * 1000 then .passed else .ahead)
          else e.status })
      ∧ t.route.progress = (if s.route.progress.moving then t.derive else s.route.progress)
      ∧ t.route.facts = { s.route.facts with table := t.route.table, progress := t.route.progress }
      ∧ s.PoolFollows t ∧ s.PhaseFollows t (t.route.progress ≠ s.route.progress) ∧ s.NoticesFollow t False

/-- STOP_CALLED that reaches a stop (R18, R14): the TARGET, or the lowest AHEAD calling stop above the past line (the served stops
jumped over MISSED), or the last-missed stop while still MISSED. STANDING at it, with the next stop above it TARGET, the position
set to its post as a position setting (R33), STOP_REACHED and STAGE set, and the Arrival line recording the arrival at the post in
EMPTY, ARRIVAL_OVERRUN set and counted in FRESH (R170). The AUTO entry speaks of the stop reached (R73, R74); of the coach
computer's notices those leave that last until the departure from the stop left in STANDING (R72), the others keep their order;
blank-all follows the state (R117). The strip lines of changed slots and every composed seat become pending (R25, R61). -/
def Obligations.StopCalledReaches : Prop :=
  ∀ (s : State) (n x : Nat) (e : StopEntry) (jumped : Bool), RouteLaw s.route →
    s.head = some { slot := n, contents := .message (.stopCalled e.code) } → s.route.entry x = some e →
    s.route.progress ≠ .ended → s.route.progress ≠ .noRoute →
    ((jumped = false ∧ s.route.target = some x)
      ∨ ((∀ y e', s.route.target = some y → s.route.entry y = some e' → e'.code ≠ e.code)
        ∧ ((jumped = true ∧ s.route.pastEnd ≤ x ∧ e.kind = .call ∧ e.status = .ahead
            ∧ ∀ i e', s.route.pastEnd ≤ i → i < x → s.route.entry i = some e' → e'.kind = .call → e'.status = .ahead →
                e'.code ≠ e.code)
          ∨ (jumped = false ∧ s.route.lastMissed = some x ∧ e.status = .missed
            ∧ ∀ i e', s.route.pastEnd ≤ i → s.route.entry i = some e' → e'.kind = .call → e'.status = .ahead →
                e'.code ≠ e.code)))) →
    ∃ t u : State, exec .stopCalled s = .next t ∧ t = u.settle ∧ s.ChangedLinesJoin u ∧ u.seats.pending = s.everySeat
      ∧ t.path = s.popHead.path
      ∧ t.route.progress = .standing ∧ t.route.departFlag = false ∧ t.route.lastMissed = none ∧ t.route.current = some x
      ∧ t.route.target =
          (s.route.entries.find? fun q => decide (x < q.1) && q.2.isCall
            && (decide (q.2.status = .ahead) || decide (q.2.status = .target))).map (·.1)
      ∧ (∀ i, t.route.entry i = (s.route.entry i).map fun q =>
          { q with status := calledStatus x jumped s.route.pastEnd t.route.target i q })
      ∧ t.route.settings = s.route.settings
      ∧ t.odo = { s.odo with position := e.post * 1000, remUm := 0, est := {} }
      ∧ (s.params.fixTol * 1000 < gap (e.post * 1000) s.odo.position → t.report.has .fixJump = true)
      ∧ t.report.has .stopReached = true ∧ t.report.has .stage = true
      ∧ t.reported =
          (((if s.params.fixTol * 1000 < gap (e.post * 1000) s.odo.position then
              (s.reported.withFactor .fixJump).withCount .fixJump else s.reported).withPosition t.odo
            |>.withFactor .stopReached).withArrival s.router.map.report.len e s.route.clock e.post).withFactor .stage
      ∧ t.windows.rest = { s.windows.rest with current := some x }
      ∧ (s.route.progress ≠ .standing → t.seats.pool = s.seats.pool)
      ∧ (∀ c, s.route.progress = .standing → s.route.current = some c →
          t.seats.pool = s.seats.pool.filter fun q => (q.2.mappedTo s.route).all fun m => decide (c < m))
      ∧ s.PhaseFollows t True ∧ (NoticeLaw s → t.autoNow = t.autoAtStage s.autoNow)
      ∧ (s.route.progress ≠ .standing → s.KeepsCoachNotices t)
      ∧ (∀ c, s.route.progress = .standing → s.route.current = some c → NoticeLaw s →
          t.coachNotices = (s.notices.queue.filter fun n =>
            n.fromCoach && decide (n.expiry ≠ .untilDepart (s.route.codeAt c))).map Notice.content)

/-- STOP_CALLED that reaches no stop (R18): refused with STATE in ENDED, with NO_STOP in NO_ROUTE and for a code in no entry; no
effect for the CURRENT entry's code; STATE when an entry above the past line has the code; and PAST otherwise. -/
def Obligations.StopCalledElsewhere : Prop :=
  ∀ (s : State) (n code : Nat), s.head = some { slot := n, contents := .message (.stopCalled code) } →
    (s.route.progress = .ended → s.Refuses .stopCalled .state n)
    ∧ ((s.route.progress = .noRoute ∨ (s.route.progress ≠ .ended ∧ ∀ i e, s.route.entry i = some e → e.code ≠ code)) →
        s.Refuses .stopCalled .noStop n)
    ∧ (s.route.progress ≠ .ended → s.route.progress ≠ .noRoute → (∃ i e, s.route.entry i = some e ∧ e.code = code) →
        (∀ y e, s.route.target = some y → s.route.entry y = some e → e.code ≠ code) →
        (∀ i e, s.route.pastEnd ≤ i → s.route.entry i = some e → e.kind = .call → e.status = .ahead → e.code ≠ code) →
        (∀ y e, s.route.lastMissed = some y → s.route.entry y = some e → e.status = .missed → e.code ≠ code) →
        ((∃ e, s.route.currentEntry = some e ∧ e.code = code) → s.TakesIdly .stopCalled)
        ∧ ((∀ e, s.route.currentEntry = some e → e.code ≠ code) →
            ((∃ i e, s.route.pastEnd ≤ i ∧ s.route.entry i = some e ∧ e.code = code) → s.Refuses .stopCalled .state n)
            ∧ ((∀ i e, s.route.pastEnd ≤ i → s.route.entry i = some e → e.code ≠ code) → s.Refuses .stopCalled .past n)))

/-- STOP_SKIPPED (R19): the lowest AHEAD or TARGET calling stop above the past line with the code becomes SKIPPED the target is
reselected, ROUTE_CHANGE is handed, so that every composed seat becomes pending (R61), and its strip line becomes pending; the
AUTO entry follows a new TARGET and a new state (R74, R75), blank-all and the phase sequence the state (R117), at ENDED the
reservations behind the train expire (R56), and the coach computer's notices stand. With none: no effect for a stop already
SKIPPED, STATE for one NOT_SERVED or a timing point, PAST for one behind, and NO_STOP for an unknown code; STATE in ENDED. -/
def Obligations.StopSkippedActs : Prop :=
  (∀ (s : State) (n x : Nat) (e : StopEntry), RouteLaw s.route →
    s.head = some { slot := n, contents := .message (.stopSkipped e.code) } → s.route.progress ≠ .ended →
    s.route.pastEnd ≤ x → s.route.entry x = some e → e.kind = .call → (e.status = .ahead ∨ e.status = .target) →
    (∀ i e', s.route.pastEnd ≤ i → i < x → s.route.entry i = some e' → e'.kind = .call →
      (e'.status = .ahead ∨ e'.status = .target) → e'.code ≠ e.code) →
    ∃ t u : State, exec .stopSkipped s = .next t ∧ t = u.settle ∧ s.ChangedLinesJoin u ∧ u.seats.pending = s.everySeat
      ∧ t.path = s.popHead.path ∧ t.windows.rest = s.windows.rest ∧ s.Reselected t false
      ∧ t.route.entry x = some { e with status := .skipped }
      ∧ (∀ i, i ≠ x →
          t.route.entry i = (s.route.entry i).map fun q => { q with status := afterSelect t.route.target i q.status })
      ∧ (s.route.progress.moving = false → t.route.progress = s.route.progress)
      ∧ t.route.facts = { s.route.facts with table := t.route.table, progress := t.route.progress }
      ∧ s.PoolFollows t ∧ s.PhaseFollows t (t.route.progress ≠ s.route.progress)
        ∧ s.NoticesFollow t (t.route.target ≠ s.route.target))
  ∧ (∀ (s : State) (n code : Nat), s.head = some { slot := n, contents := .message (.stopSkipped code) } →
    (s.route.progress = .ended → s.Refuses .stopSkipped .state n)
    ∧ (s.route.progress ≠ .ended →
        (∀ i e, s.route.pastEnd ≤ i → s.route.entry i = some e → e.kind = .call → (e.status = .ahead ∨ e.status = .target) →
          e.code ≠ code) →
        ((∃ i e, s.route.pastEnd ≤ i ∧ s.route.entry i = some e ∧ e.code = code ∧ e.status = .skipped) →
          s.TakesIdly .stopSkipped)
        ∧ ((∀ i e, s.route.pastEnd ≤ i → s.route.entry i = some e → e.status = .skipped → e.code ≠ code) →
            ((∃ i e, s.route.pastEnd ≤ i ∧ s.route.entry i = some e ∧ e.code = code
                ∧ (e.status = .notServed ∨ e.kind = .pass)) → s.Refuses .stopSkipped .state n)
            ∧ ((∀ i e, s.route.pastEnd ≤ i → s.route.entry i = some e → (e.status = .notServed ∨ e.kind = .pass) →
                e.code ≠ code) →
                ((∃ i e, s.route.entry i = some e ∧ e.code = code) → s.Refuses .stopSkipped .past n)
                ∧ ((∀ i e, s.route.entry i = some e → e.code ≠ code) → s.Refuses .stopSkipped .noStop n)))))

/-- STOP_RESTORED (R20): the lowest SKIPPED entry above the past line with the code becomes AHEAD, or NOT_SERVED if its mask
excludes the portion, the target is reselected, ROUTE_CHANGE is handed, so that every composed seat becomes pending (R61), and its
strip line becomes pending; PAST when its post lies at or below the position. On a restoration the AUTO entry follows a new TARGET
and a new state (R74, R75), blank-all and the phase sequence the state (R117), at ENDED the reservations behind the train expire
(R56), and the coach computer's notices stand. With none: no effect when the code lies above the past line, PAST when it lies only
behind, NO_STOP for an unknown code; STATE in ENDED. -/
def Obligations.StopRestoredActs : Prop :=
  (∀ (s : State) (n x : Nat) (e : StopEntry), RouteLaw s.route →
    s.head = some { slot := n, contents := .message (.stopRestored e.code) } → s.route.progress ≠ .ended →
    s.route.pastEnd ≤ x → s.route.entry x = some e → e.status = .skipped →
    (∀ i e', s.route.pastEnd ≤ i → i < x → s.route.entry i = some e' → e'.status = .skipped → e'.code ≠ e.code) →
    (e.post * 1000 ≤ s.odo.position → s.Refuses .stopRestored .past n)
    ∧ (s.odo.position < e.post * 1000 →
      ∃ t u : State, exec .stopRestored s = .next t ∧ t = u.settle ∧ s.ChangedLinesJoin u ∧ u.seats.pending = s.everySeat
        ∧ t.path = s.popHead.path ∧ t.windows.rest = s.windows.rest
        ∧ s.Reselected t false
        ∧ t.route.entry x = some { e with
            status := afterSelect t.route.target x (if e.mask.getLsbD s.route.portion then .ahead else .notServed) }
        ∧ (∀ i, i ≠ x →
            t.route.entry i = (s.route.entry i).map fun q => { q with status := afterSelect t.route.target i q.status })
        ∧ (s.route.progress.moving = false → t.route.progress = s.route.progress)
        ∧ t.route.facts = { s.route.facts with table := t.route.table, progress := t.route.progress }
        ∧ s.PoolFollows t ∧ s.PhaseFollows t (t.route.progress ≠ s.route.progress)
        ∧ s.NoticesFollow t (t.route.target ≠ s.route.target)))
  ∧ (∀ (s : State) (n code : Nat), s.head = some { slot := n, contents := .message (.stopRestored code) } →
    (s.route.progress = .ended → s.Refuses .stopRestored .state n)
    ∧ (s.route.progress ≠ .ended →
        (∀ i e, s.route.pastEnd ≤ i → s.route.entry i = some e → e.status = .skipped → e.code ≠ code) →
        ((∃ i e, s.route.pastEnd ≤ i ∧ s.route.entry i = some e ∧ e.code = code) → s.TakesIdly .stopRestored)
        ∧ ((∀ i e, s.route.pastEnd ≤ i → s.route.entry i = some e → e.code ≠ code) →
            ((∃ i e, s.route.entry i = some e ∧ e.code = code) → s.Refuses .stopRestored .past n)
            ∧ ((∀ i e, s.route.entry i = some e → e.code ≠ code) → s.Refuses .stopRestored .noStop n))))

/-- DELAY sets the announced delay (R39), CLOCK sets or unsets the clock with a fresh tick count (R38), ORIENTATION sets the
orientation, which the Router follows (R9, R110), and has no effect when it names the one held. Each leaves everything else of the
journey as it stands. DELAY and CLOCK make the strip lines of the TARGET, the CURRENT entry and every AHEAD CALL entry pending, a
new orientation every strip line and every composed seat (R25, R61). -/
def Obligations.DelayClockAndOrientation : Prop :=
  (∀ (s : State) (n d : Nat), s.head = some { slot := n, contents := .message (.delay d) } →
    ∃ t u : State, exec .delay s = .next t ∧ t = u.settle ∧ s.StripsJoin u s.route.Timed
      ∧ t.path = s.popHead.path ∧ t.windows = s.windows ∧ t.reported = s.reported
      ∧ t.journey = { s.journey with route := { s.route.facts with delay := d } })
  ∧ (∀ (s : State) (n : Nat) (m : Option Nat), s.head = some { slot := n, contents := .message (.clock m) } →
    ∃ t u : State, exec .clock s = .next t ∧ t = u.settle ∧ s.StripsJoin u s.route.Timed
      ∧ t.path = s.popHead.path ∧ t.windows = s.windows ∧ t.reported = s.reported
      ∧ t.journey = { s.journey with route := { s.route.facts with clock := m, clockTicks := 0 } })
  ∧ (∀ (s : State) (n : Nat) (rev : Bool), s.head = some { slot := n, contents := .message (.orientation rev) } →
    ∃ t u : State, exec .orientation s = .next t ∧ t.path = s.popHead.path ∧ t.reported = s.reported ∧ t = u.settle
      ∧ (s.route.reversed ≠ rev → u.route.stripPending = List.range s.router.map.routeStrip.len ∧ u.seats.pending = s.everySeat)
      ∧ t.journey = { s.journey with route := { s.route.facts with reversed := rev } }
      ∧ (s.route.reversed = rev → t.windows = s.windows)
      ∧ (s.route.reversed ≠ rev → t.windows = { s.windows with reversed := rev }))

/-- PORTION_SET (R8): refused with STATE in ENDED; otherwise the portion is stored, the statuses of the entries above the past line
follow the masks, and the target is reselected (R7); the strip lines of changed slots and every composed seat become pending (R25,
R61); the AUTO entry follows a new TARGET and a new state (R74, R75), blank-all and the phase sequence the
state (R117), at ENDED the reservations behind the train expire (R56), and the coach computer's notices stand. -/
def Obligations.PortionSetRecomputes : Prop :=
  ∀ (s : State) (n p : Nat), s.head = some { slot := n, contents := .message (.portionSet p) } →
    (s.route.progress = .ended → s.Refuses .portionSet .state n)
    ∧ (RouteLaw s.route → s.route.progress ≠ .ended →
      ∃ t u : State, exec .portionSet s = .next t ∧ t = u.settle ∧ s.ChangedLinesJoin u ∧ u.seats.pending = s.everySeat
        ∧ t.path = s.popHead.path ∧ t.windows.rest = s.windows.rest
        ∧ s.Reselected t false
        ∧ (∀ i, t.route.entry i = (s.route.entry i).map fun e => { e with
            status := afterSelect t.route.target i (portionStatus s.route.pastEnd p s.odo.position i e) })
        ∧ (s.route.progress.moving = false → t.route.progress = s.route.progress)
        ∧ t.route.facts = { s.route.facts with table := t.route.table, progress := t.route.progress, portion := p }
        ∧ s.PoolFollows t ∧ s.PhaseFollows t (t.route.progress ≠ s.route.progress)
        ∧ s.NoticesFollow t (t.route.target ≠ s.route.target))

/-- NOTICE_ADD (R68 to R70): a present id has its content replaced in its place, and a SHOWN one of the highest priority starts
its showing again; a new notice joins the tail; on a full queue the oldest of the lowest priority among the entries that are not
URGENT is evicted when its priority is lower, and else the notice is refused, NOTICE_DROPPED set and counted in both cases. What
is SHOWN afterwards, with its mark, dwell, sequence number, chime and banner target, is what the rotation check leaves (R76 to
R78, R80): after an append and after a replacement of a QUEUED entry once; for the SHOWN entry after its restart (R70); with an
eviction first after the entry has left and then after the append (R69, R71). The mark after a preemption is the preempting entry
(log 36). -/
def Obligations.NoticeAddQueues : Prop :=
  ∀ (s : State) (n : Nat) (a : NoticeArgs) (x : Notice), NoticeLaw s →
    s.head = some { slot := n, contents := .message (.noticeAdd a) } →
    x = { id := a.id, cls := a.cls, priority := if a.cls = .urgent then 3 else a.priority, text := a.text
          dwell := if a.dwell = 0 then s.params.dwell else a.dwell, expiry := a.expiry, chime := a.chime, shown := false
          auto := none } →
    ∃ t, exec .noticeAdd s = .next t ∧ t.path = s.popHead.path ∧ t.windows.rest = s.windows.rest
      ∧ t.journey = { s.journey with notices := t.notices.facts }
      ∧ ((∃ q ∈ s.notices.queue, q.id = a.id) →
          t.notices.queue.map Notice.content = s.notices.queue.map (fun q => if q.id = a.id then x else q.content)
          ∧ t.reported = s.reported
          ∧ (∀ q, s.notices.shownEntry = some q → q.id = a.id → s.route.progress.blank = false →
              (∀ r ∈ s.notices.queue, r.id ≠ a.id → r.priority ≤ x.priority) →
              t.notices.shownEntry = some { x with shown := true } ∧ t.notices.dwell = x.dwell
                ∧ t.notices.seq = (s.notices.seq + 1) % 65536 ∧ (a.chime = true → t.chime = true))
          ∧ t.shows = (if s.shows.id = some a.id then s.shows.start s x else s.shows).check s
              (s.notices.queue.map fun q => if q.id = a.id then x else q))
      ∧ ((∀ q ∈ s.notices.queue, q.id ≠ a.id) → (s.notices.queue.filter Notice.fromCoach).length < 15 →
          t.notices.queue.map Notice.content = s.notices.queue.map Notice.content ++ [x] ∧ t.reported = s.reported
            ∧ t.shows = s.shows.check s (s.notices.queue ++ [x]))
      ∧ ((∀ q ∈ s.notices.queue, q.id ≠ a.id) → 15 ≤ (s.notices.queue.filter Notice.fromCoach).length →
          t.reported = (s.reported.withFactor .noticeDropped).withCount .noticeDropped
          ∧ (∀ before m after, s.notices.queue = before ++ m :: after → m.fromCoach = true → m.cls ≠ .urgent →
              (∀ r ∈ before, r.fromCoach = true → r.cls ≠ .urgent → m.priority < r.priority) →
              (∀ r ∈ after, r.fromCoach = true → r.cls ≠ .urgent → m.priority ≤ r.priority) → m.priority < x.priority →
              t.notices.queue.map Notice.content = (before ++ after).map Notice.content ++ [x]
                ∧ t.shows = ({ s.shows with mark := markWithout s.notices.mark before m }.check s (before ++ after)).check s
                    (before ++ after ++ [x]))
          ∧ ((∀ m ∈ s.notices.queue, m.fromCoach = true → m.cls ≠ .urgent → x.priority ≤ m.priority) →
              t.notices.facts = s.notices.facts ∧ t.windows = s.windows))

/-- NOTICE_CANCEL (R71): id 255 is refused with NO_NOTICE, an id that is not present has no effect, and a present one leaves the
queue; while the journey runs an entry of the highest priority is SHOWN afterwards (R78): after the SHOWN one left, the first
after the rotation mark, which passes from the entry that left to the one before (R67, R77); else the SHOWN one, when none is
higher. A selection begins a showing, with its dwell, sequence number, mark, chime and banner target (R76, R80, R83); the SHOWN
entry that keeps the banner keeps all of them; with no entry left nothing is SHOWN (R78). The mark after a showing start is the
entry started (log 36). -/
def Obligations.NoticeCancelRemoves : Prop :=
  ∀ (s : State) (n id : Nat), s.head = some { slot := n, contents := .message (.noticeCancel id) } →
    (id = 255 → s.Refuses .noticeCancel .noNotice n)
    ∧ (id ≠ 255 → (∀ q ∈ s.notices.queue, q.id ≠ id) → s.TakesIdly .noticeCancel)
    ∧ (NoticeLaw s → id ≠ 255 → (∃ q ∈ s.notices.queue, q.id = id) →
      ∃ t, exec .noticeCancel s = .next t ∧ t.path = s.popHead.path ∧ t.windows.rest = s.windows.rest
        ∧ t.reported = s.reported
        ∧ t.journey = { s.journey with notices := t.notices.facts }
        ∧ t.notices.queue.map Notice.content =
            (s.notices.queue.filter fun q => decide (q.id ≠ id)).map Notice.content
        ∧ (s.route.progress.blank = true → t.notices.shownEntry = none)
        ∧ (s.route.progress.blank = false → t.notices.queue ≠ [] →
            ∃ q, t.notices.shownEntry = some q ∧ q.priority = topPriority t.notices.queue)
        ∧ (∀ before after m, s.notices.queue = before ++ m :: after → m.id = id → s.route.progress.blank = false →
            (m.shown = true →
              t.notices.shownEntry.map (·.id) = selectedId (markWithout s.notices.mark before m) (before ++ after))
            ∧ (∀ q, s.notices.shownEntry = some q → q.id ≠ id → q.priority = topPriority (before ++ after) →
              t.notices.shownEntry.map (·.id) = some q.id))
        ∧ (∀ before after m, s.notices.queue = before ++ m :: after → m.id = id →
            t.shows = { s.shows with mark := markWithout s.notices.mark before m }.check s (before ++ after)))

/-- JOURNEY_RESET (R180, R26, R41, R65, R85, R119, R171): the route empty in NO_ROUTE with portion, orientation and clock kept, the
odometer cleared with its filters and window timer kept, the Pool and the Notice Queue empty, the banner target "no target", no
reached slot, blank-all true, the Arrival line EMPTY, STAGE set; factors, counters and the last bad record stand; every strip line
and every composed seat become pending (R25, R65). -/
def Obligations.JourneyResetClears : Prop :=
  ∀ (s : State) (n : Nat), s.head = some { slot := n, contents := .message .journeyReset } →
    ∃ t u : State, exec .journeyReset s = .next t ∧ t.path = s.popHead.path ∧ t = u.settle
      ∧ u.route.stripPending = List.range s.router.map.routeStrip.len ∧ u.seats.pending = s.everySeat
      ∧ t.windows = { s.windows with bannerTarget := none, current := none }
      ∧ t.route.facts =
          ({ portion := s.route.portion, reversed := s.route.reversed, clock := s.route.clock
             clockTicks := s.route.clockTicks } : Route).facts
      ∧ t.odo = { doorLevel := s.odo.doorLevel, doorCount := s.odo.doorCount, wheelLevel := s.odo.wheelLevel
                  winTimer := s.odo.winTimer }
      ∧ t.seats.pool = []
      ∧ t.notices.queue = [] ∧ t.notices.mark = none ∧ t.notices.dwell = 0 ∧ t.notices.chimeTimer = s.notices.chimeTimer
      ∧ t.phase.blankAll = true ∧ t.phase.plane = s.phase.plane ∧ t.phase.blink = s.phase.blink
      ∧ t.phase.tick = s.phase.tick
      ∧ t.reported = { s.reported.withFactor .stage with
          arrival := {}, posM := 0, repSpeed := 0, settled := false }

/-! ### Reports, compositions and the Line Store -/

/-- What a coach computer read of a REPORT line does to the record (R131, R167, R169, R170), and that a read that is granted the
port does it. The Counter line: each counter of the words read is lowered by its shown value, which becomes 0, but a read of word
7 alone clears nothing. The Position line: an OFF latch turns ON when the words include word 0 and not word 7. The Arrival line:
word 7 makes it EMPTY. The other lines: nothing. And what each COACH_TRANSFER does to the Position read latch (R169): OFF it stays;
a read of the line with word 7 turns it OFF; the first other one sets the started flag, and each later one counts, the eighth
turning it OFF. In LOADING and PASSIVE no REPORT_READ is handed (R136), for a read taken up in RELOADING either (log 32). -/
def Obligations.ReportReadActs : Prop :=
  (∀ (r : Report) (first count : Nat), 1 ≤ count → first + count ≤ 8 →
    (first ≤ 6 → r.counters.length = 14 → r.shown.length = 14 →
      (r.readLine 1 first count).facts = { r.facts with counters := (r.readLine 1 first count).counters }
      ∧ ∀ i, i < 14 →
        (r.readLine 1 first count).counters.getD i 0 =
          (if first ≤ i / 2 ∧ i / 2 < first + count then r.counters.getD i 0 - r.shown.getD i 0 else r.counters.getD i 0)
        ∧ (r.readLine 1 first count).shown.getD i 0 =
          (if first ≤ i / 2 ∧ i / 2 < first + count then 0 else r.shown.getD i 0))
    ∧ (first = 7 → r.readLine 1 first count = r)
    ∧ r.readLine 2 first count =
        { r with latch := if r.latch = none ∧ first = 0 ∧ count ≤ 7 then some { count := 0, started := false } else r.latch }
    ∧ r.readLine 3 first count =
        { r with arrival := { r.arrival with fresh := if first + count = 8 then false else r.arrival.fresh } }
    ∧ r.readLine 0 first count = r ∧ r.readLine 4 first count = r ∧ r.readLine 5 first count = r)
  ∧ (∀ (r : Report) (release : Bool),
    r.coachTransfer release = { r with
      latch := r.latch.bind fun l =>
        if release = true then none
        else if l.started = false then some { l with started := true }
        else if l.count = 7 ∨ 7 < l.count then none
        else some { l with count := l.count + 1 } })
  ∧ (∀ (s : State) (c : CoachTx) (i : Nat) (o : Bool), s.arb.port = none → s.pins.reset = false → s.coachStands = some c →
    c.kind = .read (some i) o →
    (s.arb.locked = true ∨ (s.loader.fetch = none ∧ s.panelStands = none ∧ s.storeStands = none)) →
    ∃ t, exec .grant s = .next t
      ∧ t.reported = (if s.mapped then s.report.readLine i c.req.first c.req.count else s.report).facts)

/-- A composer's offer taken into the Line Store (R89 to R92): the line's newest data is what was offered; a held line keeps its
place, its state and, while it is being written back, the data under way; a line not held joins as the youngest, DIRTY; no other
entry changes, and the law of the store is kept while there is room. Pending lines are offered, in the order of R93, with the
words of R186 as the fields stand: the six REPORT lines (R81, R118, R165 to R170), the Position line only while its latch is OFF
(R169), the strip lines from the lowest (R24, R25), and the seats from the lowest, an unchanged one leaving without a composition
(R57 to R59). After every step no offer that the store can take stands (R88; log 8). A line joins its pending set at most once:
the lines of changed slots, the TARGET's at changed times (R25), a seat below the seat count and the SEAT_LABEL length, and at a
full resolution every such seat (R59); each REPORT line when what it shows changes: the Event line by R165, the Counter line by
R166 and R167, the Position line at the events of R168, the Arrival line by R170 and R171, the Banner line at its causes (R82,
R85), the Phase line by R116 and R117; the pending sets stay in rising order. -/
def Obligations.OfferTakenIntoStore : Prop :=
  (∀ (st : List Entry) (line : Nat) (whole : Bool) (ws : List Word), StoreLaw st →
    (canTake st line = true ↔ ((∃ e ∈ st, e.line = line) ∨ st.length < 32))
    ∧ (∃ e, heldEntry (takeOffer st line whole ws) line = some e ∧ e.newest = ws
      ∧ (∀ old, heldEntry st line = some old →
          e.writing = old.writing ∧ e.whole = old.whole ∧ (old.writing = true → e.data = old.data))
      ∧ (heldEntry st line = none → e.writing = false ∧ e.whole = whole ∧ e.succ = none))
    ∧ (∀ l, l ≠ line → heldEntry (takeOffer st line whole ws) l = heldEntry st l)
    ∧ (takeOffer st line whole ws).map (·.line) =
        st.map (·.line) ++ (if (heldEntry st line).isSome then [] else [line])
    ∧ (canTake st line = true → StoreLaw (takeOffer st line whole ws)))
  ∧ (∀ s : State, (s.active = false ∨ s.quiet) → s.settle = s)
  ∧ (∀ s : State, s.active = true →
    (s.phase.pending = true →
      s.Composes 4 false { s with phase := { s.phase with pending := false } }
        { s with phase := { s.phase with pending := false } } s.phaseLine)
    ∧ (s.phase.pending = false →
      (s.report.pendEvent = true →
        s.Composes 0 false { s with report := { s.report with pendEvent := false } }
          { s with report := { s.report with pendEvent := false, seqEvent := advanced s.report.seqEvent } } s.eventLine)
      ∧ (s.report.pendEvent = false →
        (s.report.pendCounter = true →
          s.Composes 1 false { s with report := { s.report with pendCounter := false } }
            { s with report := { s.report with
                pendCounter := false, seqCounter := advanced s.report.seqCounter, shown := s.report.counters } }
            s.counterLine)
        ∧ (s.report.pendCounter = false →
          (s.report.pendPosition = true →
            s.Composes 2 s.report.latch.isSome { s with report := { s.report with pendPosition := false } }
              { s with report := { s.report with
                  pendPosition := false, seqPosition := advanced s.report.seqPosition, posLast := s.positionFields } }
              s.positionLine)
          ∧ (s.report.pendPosition = false →
            (s.report.pendArrival = true →
              s.Composes 3 false { s with report := { s.report with pendArrival := false } }
                { s with report := { s.report with pendArrival := false, seqArrival := advanced s.report.seqArrival } }
                s.arrivalLine)
            ∧ (s.report.pendArrival = false → s.notices.bannerPending = true →
              s.Composes 5 false { s with notices := { s.notices with bannerPending := false } }
                { s with notices := { s.notices with bannerPending := false, last := s.bannerFields } } s.bannerLine)))))
    ∧ (s.phase.pending = false → s.report.pendEvent = false → s.report.pendCounter = false → s.report.pendPosition = false →
      s.report.pendArrival = false → s.notices.bannerPending = false →
      (∀ i rest, s.route.stripPending = i :: rest →
        (canTake s.store (s.router.map.routeStrip.base + i) = true →
          s.settle =
            { s with
              store := takeOffer s.store (s.router.map.routeStrip.base + i) false (s.stripLine i)
              route :=
                { s.route with
                  stripPending := rest, stripSeq := advanced s.route.stripSeq
                  stripLast := s.route.stripLast.set i (s.stripTimesAt i) } }.settle)
        ∧ (canTake s.store (s.router.map.routeStrip.base + i) = false → s.seats.pending = [] → s.settle = s))
      ∧ (∀ n rest c old, s.route.stripPending = [] → s.seats.pending = n :: rest → c = resolveSeat s.route s.seats n →
        old = s.seats.recs.getD n {} →
        (old.composed = true → old.last = c →
          s.settle = { s with seats := { s.seats with pending := rest } }.settle)
        ∧ ((old.composed = false ∨ old.last ≠ c) →
          (canTake s.store (s.router.map.seatLabel.base + n) = true →
            s.settle =
              { s with
                store := takeOffer s.store (s.router.map.seatLabel.base + n) false (seatLine c old.seq)
                seats :=
                  { s.seats with
                    pending := rest
                    recs := s.seats.recs.set n { composed := true, last := c, seq := advanced old.seq } } }.settle)
          ∧ (canTake s.store (s.router.map.seatLabel.base + n) = false → s.settle = s)))))
  ∧ (∀ s t : State, PathLaw s → s.Settled → step s = .next t → t.Settled)
  ∧ (∀ (s : State) (slots : List Nat) (i : Nat),
    (i ∈ (s.joinStrip slots).route.stripPending ↔
      (i ∈ s.route.stripPending
        ∨ (i < s.router.map.routeStrip.len ∧ ∃ x ∈ slots, i = s.route.lineOf x)))
    ∧ (s.route.stripPending.Pairwise (· < ·) → (s.joinStrip slots).route.stripPending.Pairwise (· < ·)))
  ∧ (∀ (s : State) (old : Route), old.table.length = s.route.table.length →
    ∃ slots, s.joinChanged old = s.joinStrip slots
      ∧ ∀ x, x ∈ slots ↔ (old.entry x).map StopEntry.strip ≠ (s.route.entry x).map StopEntry.strip)
  ∧ (∀ (s : State) (x : Nat), s.route.target = some x →
    s.joinTargetLine =
      if s.route.stripLast.getD (s.route.lineOf x) (none, none) = (s.expected, s.lateness) then s
      else s.joinStrip [x])
  ∧ (∀ (s : State) (n m : Nat),
    (m ∈ (s.joinSeat n).seats.pending ↔
      (m ∈ s.seats.pending ∨ (m = n ∧ n < min s.loader.profile.seatCount s.router.map.seatLabel.len)))
    ∧ (s.seats.pending.Pairwise (· < ·) → (s.joinSeat n).seats.pending.Pairwise (· < ·)))
  ∧ (∀ (s t : State) (c : Instr), exec c s = .next t → t.active = true →
    ∃ u : State, (t = u ∨ t = u.settle) ∧ s.LinesJoin c u)
  ∧ (∀ s : State, s.fullResolution = { s with seats := { s.seats with pending := s.everySeat } })

/-- The state of a seat (R53): NONE in NO_ROUTE and ENDED, and otherwise the first of BLOCKED, OVERLAP, OCCUPIED, FROM_NEXT,
FREE_UNTIL and FREE whose condition holds, with its attribute; its texts, stop code and kind are those of R54, drawn from the
relevant reservation, the first in list order (R46) with the condition, for FREE_UNTIL of those with the lowest from-slot above
the TARGET. The active reservations of the seat are those whose mapped from-slot is below the mapped to-slot: a bound stop that is
not served is rebased to the next served stop, or clamped, as an unbound to stop is, to the final served stop (R50, R51). The
reference stop (R52) is the CURRENT slot, in PRE_JOURNEY the TARGET, and without a CURRENT the highest CALL entry PASSED or
MISSED; it is held as one more than the slot, so that −1 is 0. -/
def Obligations.SeatStateByOrder : Prop :=
  (∀ (r : Route) (x : Seats) (n : Nat) (ls : List Leg), ls = legs r x n →
    (r.progress.blank = true →
      resolveSeat r x n = { state := .none, attr := .steady, kind := none, primary := .none, alternate := .none, stop := 0 })
    ∧ (∀ ref, r.refEnd = some ref →
        ((∃ l ∈ ls, l.res.kind = .blocked ∧ l.lo < ref ∧ ref ≤ l.hi) →
          ∃ l, FirstOf ls (fun l => l.res.kind = .blocked ∧ l.lo < ref ∧ ref ≤ l.hi) l
            ∧ resolveSeat r x n =
              { state := .blocked, attr := .steady, kind := some l.res.kind, primary := l.res.labelText, alternate := .none
                stop := r.codeAt l.hi })
        ∧ ((∀ l ∈ ls, l.res.kind = .blocked → ¬ (l.lo < ref ∧ ref ≤ l.hi)) →
          ((∃ a ∈ ls, ∃ b ∈ ls, a.slot ≠ b.slot ∧ a.res.kind ≠ .blocked ∧ b.res.kind ≠ .blocked ∧ a.lo < b.hi ∧ b.lo < a.hi
              ∧ ref ≤ a.hi ∧ ref ≤ b.hi) →
            ∃ l, FirstOf ls (fun a => ∃ b ∈ ls, a.slot ≠ b.slot ∧ a.res.kind ≠ .blocked ∧ b.res.kind ≠ .blocked ∧ a.lo < b.hi
                  ∧ b.lo < a.hi ∧ ref ≤ a.hi ∧ ref ≤ b.hi) l
              ∧ resolveSeat r x n =
                { state := .overlap, attr := .blink, kind := some l.res.kind, primary := l.res.labelText, alternate := .none
                  stop := r.codeAt l.lo })
          ∧ ((∀ a ∈ ls, ∀ b ∈ ls, ¬ (a.slot ≠ b.slot ∧ a.res.kind ≠ .blocked ∧ b.res.kind ≠ .blocked ∧ a.lo < b.hi
              ∧ b.lo < a.hi ∧ ref ≤ a.hi ∧ ref ≤ b.hi)) →
            ((∃ l ∈ ls, l.res.kind ≠ .blocked ∧ l.lo < ref ∧ ref ≤ l.hi) →
              ∃ l, FirstOf ls (fun l => l.res.kind ≠ .blocked ∧ l.lo < ref ∧ ref ≤ l.hi) l
                ∧ resolveSeat r x n =
                  { state := .occupied, attr := .alternate, kind := some l.res.kind, primary := l.res.labelText
                    alternate := r.stopText l.hi, stop := r.codeAt l.hi })
            ∧ ((∀ l ∈ ls, l.res.kind ≠ .blocked → ¬ (l.lo < ref ∧ ref ≤ l.hi)) →
              (∀ t, r.target = some t →
                ((∃ l ∈ ls, l.lo = t) →
                  ∃ l, FirstOf ls (fun l => l.lo = t) l
                    ∧ resolveSeat r x n =
                      { state := .fromNext, attr := if r.progress.near then .blink else .steady, kind := some l.res.kind
                        primary := l.res.labelText, alternate := r.stopText t, stop := r.codeAt t })
                ∧ ((∀ l ∈ ls, l.lo ≠ t) → (∃ l ∈ ls, t < l.lo) →
                  ∃ l, FirstOf ls (fun l => t < l.lo ∧ ∀ m ∈ ls, t < m.lo → l.lo ≤ m.lo) l
                    ∧ resolveSeat r x n =
                      { state := .freeUntil, attr := .alternate, kind := some l.res.kind, primary := .none
                        alternate := r.stopText l.lo, stop := r.codeAt l.lo })
                ∧ ((∀ l ∈ ls, l.lo < t) →
                  resolveSeat r x n =
                    { state := .free, attr := .steady, kind := none, primary := .none, alternate := .none, stop := 0 }))
              ∧ (r.target = none →
                resolveSeat r x n =
                  { state := .free, attr := .steady, kind := none, primary := .none, alternate := .none, stop := 0 }))))))
  ∧ (∀ (r : Route) (x : Seats) (n : Nat),
    (∀ l, l ∈ legs r x n ↔
      ∃ q ∈ x.pool, q.2.seat = n ∧ q.2.mappedFrom r = some l.lo ∧ q.2.mappedTo r = some l.hi ∧ l.lo < l.hi ∧ l.slot = q.1
        ∧ l.res = q.2)
    ∧ (legs r x n).Pairwise Leg.InOrder)
  ∧ (∀ (r : Route) (y : Reservation) (i : Nat),
    (y.mappedFrom r = some i ↔
      ∃ b, y.boundFrom = some b
        ∧ ((r.Serves b ∧ i = b) ∨ (¬ r.Serves b ∧ b < i ∧ r.Serves i ∧ ∀ j, b < j → j < i → ¬ r.Serves j)))
    ∧ (y.mappedTo r = some i ↔
      (y.boundTo = some i ∧ r.Serves i)
        ∨ ((∀ b, y.boundTo = some b → ¬ r.Serves b) ∧ r.Serves i ∧ ∀ j, i < j → ¬ r.Serves j)))
  ∧ (∀ r : Route,
    (r.progress.blank = true → r.refEnd = none)
    ∧ (r.progress.blank = false → ∃ k, r.refEnd = some k
        ∧ (r.progress = .preJourney → (∀ x, r.target = some x → k = x + 1) ∧ (r.target = none → k = 0))
        ∧ (r.progress ≠ .preJourney → (∀ c, r.current = some c → k = c + 1)
            ∧ (r.current = none →
                (∀ i e, r.entry i = some e → e.kind = .call → (e.status = .passed ∨ e.status = .missed) → i < k)
                ∧ (k ≠ 0 → ∃ e, r.entry (k - 1) = some e ∧ e.kind = .call ∧ (e.status = .passed ∨ e.status = .missed))))))

/-! ### Laws that every step keeps -/

/-- Every step keeps memory's canonical form and the law of the Line Store (R86, R95): at most 32 entries, never two for one line,
a successor only while WRITING, at most one WRITING. And memory changes only in a step that takes an answer to a write (log 10),
only at the bytes of that write's words (log 4). -/
def Obligations.StepKeepsMemoryAndStore : Prop :=
  ∀ s t : State, step s = .next t →
    (MemoryLaw s → MemoryLaw t) ∧ (StoreLaw s.store → StoreLaw t.store)
    ∧ (MemoryLaw s → ∀ a, t.mem.read a ≠ s.mem.read a →
        ∃ p, s.arb.port = some p ∧ p.req.write = true ∧ t.arb.port = none
          ∧ p.req.line * 32 + p.req.first * 4 ≤ a ∧ a < p.req.line * 32 + (p.req.first + p.req.words.length) * 4)

/-- Every step keeps the law of the path: nothing under way while RESET is asserted (R181), a commit in progress holds a place in
the queue and stands in ACTIVE alone (R150, R159), the Intake Queue and the place together never pass 8 (R149), no profile fetch in
ACTIVE (R174), never more than 4 posts (R133), and a part fetch late for a grant (log 39) stands at a free port, outside every
locked sequence (R139, R145, R147). -/
def Obligations.StepKeepsPathLaw : Prop :=
  ∀ s t : State, PathLaw s → step s = .next t → PathLaw t

/-- Every step keeps the law of counts and the odometer's law: fourteen counters that never pass 65535 (R161), at most 16 grants in
a locked sequence (R144, R146), a remainder below one millimetre, a window distance and a stable run within their limits (R29,
R31), an estimate of at most 99 minutes that is 0 and not held while invalid (R35, R36). -/
def Obligations.StepKeepsCounts : Prop :=
  ∀ s t : State, CountLaw s → OdoLaw s.odo → step s = .next t → CountLaw t ∧ OdoLaw t.odo

/-- Every step keeps the Route Table's law: kilometre posts strictly rising with slot (R1), at most one TARGET and one CURRENT with
the TARGET above (R2, R7), a CURRENT while STANDING, a TARGET in every moving state, no CALL entry in NO_ROUTE. -/
def Obligations.StepKeepsRouteLaw : Prop :=
  ∀ s t : State, RouteLaw s.route → step s = .next t → RouteLaw t.route

/-- Every step keeps the Notice Queue's law (R66, R67): no two entries with one id, at most 15 of the coach computer and one AUTO
entry, at most one SHOWN, and every waiting NOTICE_ADD a coach computer notice (R155). -/
def Obligations.StepKeepsNoticeLaw : Prop :=
  ∀ s t : State, NoticeLaw s → step s = .next t → NoticeLaw t
end

