-- ==== Sys2Proof/Laws/Checks.lean ====
section
/-! SUPPORT. Each primitive of a record check beside its row of the table (R152): a check is compared with its table row by row. -/

namespace Sys2Proof.Machine

variable {α β : Type}

/-- A condition that must hold. -/
theorem checkedBy_need (b ok : Bool) (r : Reason) (rows) (held : α → Prop) (f : Unit → Checked α) (hb : b = !ok)
    (h : ok = true → CheckedBy rows held (f ())) : CheckedBy ((b, r) :: rows) held (need ok r >>= f) := by
  subst hb; unfold CheckedBy need; cases ok
  · simp; rfl
  · exact h rfl

/-- A field with an upper bound. -/
theorem checkedBy_atMost (lenient : Bool) (hi v : Nat) (rows) (held : α → Prop) (f : Nat → Checked α)
    (h : CheckedBy rows held (f (heldAt 0 hi v))) :
    CheckedBy ((outOfRange lenient 0 hi v, .range) :: rows) held (atMost lenient hi v >>= f) := by
  unfold CheckedBy outOfRange atMost; unfold heldAt at h
  by_cases hv : v ≤ hi
  · have e : max 0 (min hi v) = v := by omega
    rw [e] at h
    have : (!lenient && decide (v < 0 ∨ hi < v)) = false := by cases lenient <;> simp <;> omega
    rw [if_pos hv, List.find?_cons, this]; exact h
  · cases lenient
    · have : (!false && decide (v < 0 ∨ hi < v)) = true := by simp; omega
      rw [if_neg hv, List.find?_cons, this]; rfl
    · have e : max 0 (min hi v) = hi := by omega
      rw [e] at h
      rw [if_neg hv, List.find?_cons]; exact h

/-- A field with a range. -/
theorem checkedBy_between (lenient : Bool) (lo hi v : Nat) (hl : lo ≤ hi) (rows) (held : α → Prop) (f : Nat → Checked α)
    (h : CheckedBy rows held (f (heldAt lo hi v))) :
    CheckedBy ((outOfRange lenient lo hi v, .range) :: rows) held (between lenient lo hi v >>= f) := by
  unfold CheckedBy outOfRange between atMost; unfold heldAt at h
  by_cases hl' : v < lo
  · have e : max lo (min hi v) = lo := by omega
    rw [e] at h; rw [if_pos hl']
    cases lenient
    · have : (!false && decide (v < lo ∨ hi < v)) = true := by simp; omega
      rw [List.find?_cons, this]; rfl
    · rw [List.find?_cons]; exact h
  rw [if_neg hl']
  by_cases hv : v ≤ hi
  · have e : max lo (min hi v) = v := by omega
    rw [e] at h
    have : (!lenient && decide (v < lo ∨ hi < v)) = false := by cases lenient <;> simp <;> omega
    rw [if_pos hv, List.find?_cons, this]; exact h
  · cases lenient
    · have : (!false && decide (v < lo ∨ hi < v)) = true := by simp; omega
      rw [if_neg hv, List.find?_cons, this]; rfl
    · have e : max lo (min hi v) = hi := by omega
      rw [e] at h
      rw [if_neg hv, List.find?_cons]; exact h

/-- A row whose fault is not there. -/
theorem checkedBy_skip (r : Reason) (b : Bool) (rows) (held : α → Prop) (out) (hb : b = false) (h : CheckedBy rows held out) : CheckedBy ((b, r) :: rows) held out := by
  subst hb; exact h

/-- Wrapping as a bind. -/
theorem checked_map_eq_bind {γ δ : Type} (x : Checked γ) (g : γ → δ) : x.map g = (x >>= fun a => .ok (g a)) := by cases x <;> rfl

/-- A minute field, 0xFFFF for not given. -/
theorem checkedBy_minute (lenient : Bool) (v : Nat) (rows) (held : α → Prop) (f : Option Nat → Checked α)
    (h : CheckedBy rows held (f (minuteHeld v))) :
    CheckedBy ((decide (v ≠ 0xFFFF) && outOfRange lenient 0 1439 v, .range) :: rows) held (minuteField lenient v >>= f) := by
  unfold minuteField; unfold minuteHeld at h
  by_cases hv : v = 0xFFFF
  · rw [if_pos hv] at h ⊢; exact checkedBy_skip _ _ _ _ _ (by simp [hv]) h
  · rw [if_neg hv] at h ⊢
    have : (decide (v ≠ 0xFFFF) && outOfRange lenient 0 1439 v) = outOfRange lenient 0 1439 v := by simp [hv]
    rw [this, checked_map_eq_bind]
    have e : (atMost lenient 1439 v >>= fun a => .ok (some a)) >>= f = (atMost lenient 1439 v >>= fun a => f (some a)) := by
      cases atMost lenient 1439 v <;> rfl
    rw [e]; exact checkedBy_atMost _ _ _ _ _ _ h

/-- A code that must be known. -/
theorem checkedBy_some (b : Bool) (o : Option β) (rows) (held : α → Prop) (f : β → Checked α) (hb : b = o.isNone)
    (h : ∀ x, o = some x → CheckedBy rows held (f x)) : CheckedBy ((b, .kind) :: rows) held (needSome o >>= f) := by
  subst hb; unfold CheckedBy needSome; cases o
  · simp; rfl
  · exact h _ rfl

/-- A check without a row left passes. -/
theorem checkedBy_end (held : α → Prop) (x : α) (h : held x) : CheckedBy [] held (.ok x) := ⟨x, rfl, h⟩

/-- What a passed check holds, weakened. -/
theorem checkedBy_mono {held held' : α → Prop} (rows) (out) (h : CheckedBy rows held out) (hh : ∀ x, held x → held' x) : CheckedBy rows held' out := by
  unfold CheckedBy at *; split <;> simp_all
  obtain ⟨x, a, b⟩ := h; exact ⟨x, a, hh _ b⟩

/-- A check whose contents are wrapped. -/
theorem checkedBy_map {γ : Type} (rows) (held : β → Prop) (held' : γ → Prop) (g : β → γ) (out : Checked β) (h : CheckedBy rows held out) (hh : ∀ x, held x → held' (g x)) : CheckedBy rows held' (out.map g) := by
  unfold CheckedBy at *; split
  · simp_all; rfl
  · simp_all; obtain ⟨x, rfl, b⟩ := h; exact ⟨_, rfl, hh _ b⟩

/-- The first fault found decides. -/
theorem checkedBy_fault (r : Reason) (b : Bool) (rows) (held : α → Prop) (hb : b = true) : CheckedBy ((b, r) :: rows) held (.error r : Checked α) := by
  subst hb; rfl

end Sys2Proof.Machine
end

