-- ==== Sys2Proof/Laws/Store.lean ====
section
/-! SUPPORT. The Line Store's law and the operations on held lines: a merge, a write-back's grant and its two completions. -/

namespace Sys2Proof.Machine

/-- An entry changed in place keeps the law, when its line, its state and its want of a successor stay. -/
theorem StoreLaw.map (st : List Entry) (h : StoreLaw st) (f : Entry → Entry) (hl : ∀ e, (f e).line = e.line)
    (hw : ∀ e, (f e).writing = e.writing) (hs : ∀ e, e.writing = false → e.succ = none → (f e).succ = none) :
    StoreLaw (st.map f) := by
  refine ⟨by simpa using h.atMost32, ?_, ?_, ?_⟩
  · have : (st.map f).map (·.line) = st.map (·.line) := by
      rw [List.map_map]; exact List.map_congr_left fun e _ => hl e
    rw [this]; exact h.oneALine
  · intro e he hwf
    obtain ⟨a, ha, rfl⟩ := List.mem_map.mp he
    rw [hw] at hwf
    exact hs a hwf (h.successor a ha hwf)
  · have : (st.map f).filter (·.writing) = (st.filter (·.writing)).map f := by
      rw [List.filter_map]
      congr 1
      exact List.filter_congr fun e _ => hw e
    rw [this, List.length_map]; exact h.oneWrite

/-- Entries that leave keep the law. -/
theorem StoreLaw.filter (st : List Entry) (h : StoreLaw st) (p : Entry → Bool) : StoreLaw (st.filter p) := by
  refine ⟨Nat.le_trans (List.length_filter_le _ _) h.atMost32, ?_, ?_, ?_⟩
  · exact List.Sublist.nodup (List.filter_sublist.map _) h.oneALine
  · intro e he; exact h.successor e (List.mem_filter.mp he).1
  · rw [List.filter_filter]
    refine Nat.le_trans ?_ h.oneWrite
    have : (st.filter fun a => a.writing && p a) = (st.filter (·.writing)).filter p := by
      rw [List.filter_filter]
      exact List.filter_congr fun e _ => Bool.and_comm _ _
    rw [this]; exact List.length_filter_le _ _

/-- A merge keeps the law (R102, R103). -/
theorem StoreLaw.mergeStore (st : List Entry) (h : StoreLaw st) (line first : Nat) (ws : List WWord) :
    StoreLaw (mergeStore st line first ws) := by
  refine h.map st _ ?_ ?_ ?_
  · intro e; split
    · unfold Entry.merge; split <;> rfl
    · rfl
  · intro e; split
    · unfold Entry.merge; split <;> rfl
    · rfl
  · intro e hw hs; split
    · unfold Entry.merge; rw [if_neg (by simp [hw])]; exact hs
    · exact hs

/-- The lines held, in their order, are the same after a write-back's grant (R95). -/
theorem grantWriteback_lines (st : List Entry) : (grantWriteback st).map (·.line) = st.map (·.line) := by
  induction st with
  | nil => rfl
  | cons e r ih =>
    unfold grantWriteback; split
    · simp [ih]
    · simp

/-- A write-back's grant gives one more entry under way, when there was a DIRTY one. -/
theorem grantWriteback_writing (st : List Entry) :
    ((grantWriteback st).filter (·.writing)).length
      = (st.filter (·.writing)).length + if (oldestDirty st).isSome then 1 else 0 := by
  induction st with
  | nil => rfl
  | cons e r ih =>
    unfold grantWriteback oldestDirty
    cases hw : e.writing
    · simp [hw]
    · rw [if_pos rfl, List.filter_cons_of_pos (p := fun e : Entry => e.writing) hw,
        List.filter_cons_of_pos (p := fun e : Entry => e.writing) hw, List.length_cons, List.length_cons, ih]
      rw [List.find?_cons_of_neg (by simp [hw])]; unfold oldestDirty; omega

/-- A write-back's grant keeps the law, when no write-back was under way (R95). -/
theorem StoreLaw.grantWriteback (st : List Entry) (h : StoreLaw st) (hn : st.filter (·.writing) = []) :
    StoreLaw (grantWriteback st) := by
  have hlen : (Machine.grantWriteback st).length = st.length := by
    have := congrArg List.length (grantWriteback_lines st); simpa using this
  refine ⟨by rw [hlen]; exact h.atMost32, by rw [grantWriteback_lines]; exact h.oneALine, ?_, ?_⟩
  · have : ∀ (l : List Entry), (∀ e ∈ l, e.writing = false → e.succ = none) →
        ∀ e ∈ Machine.grantWriteback l, e.writing = false → e.succ = none := by
      intro l
      induction l with
      | nil => intro _ e he; cases he
      | cons a r ih =>
        intro hl e he
        unfold Machine.grantWriteback at he
        split at he
        · rcases List.mem_cons.mp he with rfl | he
          · exact hl _ (by simp)
          · exact ih (fun e he => hl e (by simp [he])) e he
        · rcases List.mem_cons.mp he with rfl | he
          · intro hw; cases hw
          · exact hl e (by simp [he])
    exact this st h.successor
  · rw [grantWriteback_writing, hn]; simp; split <;> omega

/-- A write-back completed with FAULT keeps the law (R97). -/
theorem StoreLaw.completeFault (st : List Entry) (h : StoreLaw st) : StoreLaw (completeFault st) := h.filter st _

/-- Two lists that split one by a test hold its elements between them. -/
theorem length_split (st : List Entry) :
    (st.filter fun e => !e.writing).length + (st.filter fun e => e.writing).length = st.length := by
  induction st with
  | nil => rfl
  | cons e r ih => cases hw : e.writing <;> simp [hw] <;> omega

/-- A write-back completed with DONE keeps the law (R95, R96). -/
theorem StoreLaw.completeDone (st : List Entry) (h : StoreLaw st) : StoreLaw (completeDone st) := by
  have hF := h.filter st (fun e => !e.writing)
  have hno : ((st.filter fun e => !e.writing).filter (·.writing)) = [] := by
    rw [List.filter_filter, List.filter_eq_nil_iff]
    intro e _; cases e.writing <;> simp
  have hlen := length_split st
  have hmax := h.atMost32
  unfold Machine.completeDone
  generalize hw : st.filter (fun e => e.writing) = ws at *
  match ws, hw with
  | [], _ => simpa using hF
  | a :: b :: r, hw =>
    have := h.oneWrite; rw [hw] at this; simp at this
  | [w], hw =>
    have hwm := List.mem_filter.mp (by rw [hw]; simp : w ∈ st.filter fun e => e.writing)
    cases hs : w.succ with
    | none => simpa [hs] using hF
    | some d =>
      simp only [List.filterMap_cons, hs, Option.map_some, List.filterMap_nil]
      refine ⟨?_, ?_, ?_, ?_⟩
      · simp only [List.length_append, List.length_cons, List.length_nil] at hlen ⊢; omega
      · rw [List.map_append, List.nodup_append]
        refine ⟨hF.oneALine, by simp, ?_⟩
        intro x hx y hy
        simp only [List.map_cons, List.map_nil, List.mem_singleton] at hy
        subst hy
        obtain ⟨e, he, rfl⟩ := List.mem_map.mp hx
        have he' := List.mem_filter.mp he
        intro heq
        have hinj : ∀ (l : List Entry), (l.map (·.line)).Nodup → ∀ a ∈ l, ∀ b ∈ l, a.line = b.line → a = b := by
          intro l
          induction l with
          | nil => intro _ a ha; cases ha
          | cons c l ih =>
            intro hn a ha b hb hab
            rw [List.map_cons, List.nodup_cons] at hn
            rcases List.mem_cons.mp ha with rfl | ha' <;> rcases List.mem_cons.mp hb with rfl | hb'
            · rfl
            · exact absurd (List.mem_map.mpr ⟨b, hb', hab.symm⟩) hn.1
            · exact absurd (List.mem_map.mpr ⟨a, ha', hab⟩) hn.1
            · exact ih hn.2 a ha' b hb' hab
        have := hinj st h.oneALine e he'.1 w hwm.1 heq
        subst this
        simp [hwm.2] at he'
      · intro e he hwf
        rcases List.mem_append.mp he with he | he
        · exact hF.successor e he hwf
        · simp at he; subst he; rfl
      · rw [List.filter_append, hno]; simp

/-- The store after reset keeps the law. -/
theorem StoreLaw.reset : StoreLaw State.reset.store :=
  { atMost32 := by decide, oneALine := by decide, successor := (fun e he => by cases he), oneWrite := by decide }

/-! ### Offers taken one after another -/

/-- What every taken offer keeps of the Line Store, the composers' offers of a step keep (R88, R93). -/
theorem State.settle_store_keeps (P : List Entry → Prop)
    (h : ∀ st line whole ws, P st → canTake st line = true → P (takeOffer st line whole ws))
    (s : State) (h0 : P s.store) : P s.settle.store := by
  have strips : ∀ (is : List Nat) (s : State), P s.store → P (s.offerStrips is).store := by
    intro is
    induction is with
    | nil => exact fun s h0 => h0
    | cons i r ih =>
      intro s h0
      unfold State.offerStrips
      split
      · next hc => exact ih _ (h _ _ _ _ h0 hc)
      · exact h0
  have seats : ∀ (ns : List Nat) (s : State), P s.store → P (s.offerSeats ns).store := by
    intro ns
    induction ns with
    | nil => exact fun s h0 => h0
    | cons n r ih =>
      intro s h0
      unfold State.offerSeats
      dsimp only
      split
      · exact ih s h0
      · split
        · next hc => exact ih _ (h _ _ _ _ h0 hc)
        · exact h0
  have phase : ∀ s : State, P s.store → P s.offerPhase.store := fun s h0 => by
    unfold State.offerPhase
    (repeat' split) <;> first | exact h0 | exact h _ _ _ _ h0 (by assumption)
  have event : ∀ s : State, P s.store → P s.offerEvent.store := fun s h0 => by
    unfold State.offerEvent
    (repeat' split) <;> first | exact h0 | exact h _ _ _ _ h0 (by assumption)
  have counter : ∀ s : State, P s.store → P s.offerCounter.store := fun s h0 => by
    unfold State.offerCounter
    (repeat' split) <;> first | exact h0 | exact h _ _ _ _ h0 (by assumption)
  have position : ∀ s : State, P s.store → P s.offerPosition.store := fun s h0 => by
    unfold State.offerPosition
    split
    · split
      · exact h0
      · split
        · next hc => exact h _ _ _ _ h0 (Bool.and_eq_true_iff.mp hc).2
        · exact h0
    · exact h0
  have arrival : ∀ s : State, P s.store → P s.offerArrival.store := fun s h0 => by
    unfold State.offerArrival
    (repeat' split) <;> first | exact h0 | exact h _ _ _ _ h0 (by assumption)
  have banner : ∀ s : State, P s.store → P s.offerBanner.store := fun s h0 => by
    unfold State.offerBanner
    (repeat' split) <;> first | exact h0 | exact h _ _ _ _ h0 (by assumption)
  unfold State.settle
  split
  · exact seats _ _ (strips _ _ (banner _ (arrival _ (position _ (counter _ (event _ (phase _ h0)))))))
  · exact h0

/-- An offer taken leaves the data of a line's WRITING entry as it is being written (R91). -/
theorem takeOffer_writing (st : List Entry) (line l : Nat) (whole : Bool) (ws : List Word) (e : Entry)
    (h : heldEntry st l = some e) (hw : e.writing = true) :
    ∃ e', heldEntry (takeOffer st line whole ws) l = some e' ∧ e'.writing = true ∧ e'.data = e.data := by
  unfold takeOffer
  split
  · have key : heldEntry (st.map fun e => if e.line = line then e.take ws else e) l =
        (heldEntry st l).map fun e => if e.line = line then e.take ws else e := by
      unfold heldEntry
      rw [List.find?_map]
      congr 2
      funext a
      simp only [Function.comp_def]
      by_cases ha : a.line = line
      · rw [if_pos ha]; unfold Entry.take; split <;> rfl
      · rw [if_neg ha]
    rw [key, h]
    refine ⟨_, rfl, ?_⟩
    dsimp only
    split
    · unfold Entry.take; rw [if_pos hw]; exact ⟨hw, rfl⟩
    · exact ⟨hw, rfl⟩
  · refine ⟨e, ?_, hw, rfl⟩
    unfold heldEntry at *
    rw [List.find?_append, h]; rfl

/-- A WRITING entry stays with its data through the composers' offers of a step (R91, R95). -/
theorem State.settle_writing (s : State) (l : Nat) (e : Entry) (h : heldEntry s.store l = some e) (hw : e.writing = true) :
    ∃ e', heldEntry s.settle.store l = some e' ∧ e'.writing = true ∧ e'.data = e.data := by
  refine State.settle_store_keeps (fun st => ∃ e', heldEntry st l = some e' ∧ e'.writing = true ∧ e'.data = e.data)
    ?_ s ⟨e, h, hw, rfl⟩
  rintro st line whole ws ⟨e', h1, h2, h3⟩ -
  obtain ⟨e'', g1, g2, g3⟩ := takeOffer_writing st line l whole ws e' h1 h2
  exact ⟨e'', g1, g2, g3.trans h3⟩

end Sys2Proof.Machine
end

