-- ==== Sys2Proof/Laws/Compose.lean ====
section
/-! SUPPORT. The composed lines and their taking into the Line Store at the end of a step (R88, R93, R186). -/

namespace Sys2Proof.Machine

/-- Nothing changes when no strip line waits. -/
theorem State.setRoute_noStrips (s : State) (h : s.route.stripPending = []) : s.setRoute { s.route with stripPending := [] } = s := by
  show ({ s with route := { s.route with stripPending := [] } } : State) = s
  rw [← h]

/-- Nothing changes when no seat waits. -/
theorem State.setSeats_none (s : State) (h : s.seats.pending = []) : s.setSeats { s.seats with pending := [] } = s := by
  show ({ s with seats := { s.seats with pending := [] } } : State) = s
  rw [← h]

/-- Outside ACTIVE nothing is offered. -/
theorem State.settle_inactive (s : State) (h : s.active = false) : s.settle = s := by unfold State.settle; rw [h]; rfl

/-- In ACTIVE the composers offer in the order of R93. -/
theorem State.settle_active (s : State) (h : s.active = true) : s.settle =
    (let t := s.offerPhase.offerEvent.offerCounter.offerPosition.offerArrival.offerBanner
     let u := t.offerStrips t.route.stripPending
     u.offerSeats u.seats.pending) := by unfold State.settle; rw [h]; rfl

/-- A composer with nothing pending offers nothing. -/
theorem State.offerPhase_none (s : State) (h : s.phase.pending = false) : s.offerPhase = s := by unfold State.offerPhase; rw [h]; rfl
theorem State.offerEvent_none (s : State) (h : s.report.pendEvent = false) : s.offerEvent = s := by unfold State.offerEvent; rw [h]; rfl
theorem State.offerCounter_none (s : State) (h : s.report.pendCounter = false) : s.offerCounter = s := by unfold State.offerCounter; rw [h]; rfl
theorem State.offerPosition_none (s : State) (h : s.report.pendPosition = false) : s.offerPosition = s := by unfold State.offerPosition; rw [h]; rfl
theorem State.offerArrival_none (s : State) (h : s.report.pendArrival = false) : s.offerArrival = s := by unfold State.offerArrival; rw [h]; rfl
theorem State.offerBanner_none (s : State) (h : s.notices.bannerPending = false) : s.offerBanner = s := by unfold State.offerBanner; rw [h]; rfl
theorem State.offerStrips_none (s : State) (h : s.route.stripPending = []) : s.offerStrips s.route.stripPending = s := by
  rw [h]; exact State.setRoute_noStrips s h
theorem State.offerSeats_none (s : State) (h : s.seats.pending = []) : s.offerSeats s.seats.pending = s := by
  rw [h]; exact State.setSeats_none s h

/-- The fields of a word, packed as the composers pack them. -/
theorem packed_eq (fs : List (Nat × Nat × Nat)) : packed fs = word (fs.map fun f => bitsAt f.1 f.2.1 f.2.2).sum := by
  unfold packed word; congr 1
theorem flag_toNat (b : Bool) : flag b = b.toNat := by cases b <;> rfl
theorem nat_add_zero (n : Nat) : n + 0 = n := by omega
theorem sum_cons (a : Nat) (l : List Nat) : (a :: l).sum = a + l.sum := by simp
theorem seqNext_eq (n : Nat) : seqNext n = advanced n := rfl
theorem minuteCode_none : minuteCode none = 65535 := rfl
theorem latenessCode_none : latenessCode none = 0x8000 := rfl

/-- The words of the Phase line (R118). -/
theorem phaseWords_eq (s : State) : phaseWords s.phase s.params.planeExp s.params.blinkExp = s.phaseLine := by
  unfold phaseWords State.phaseLine
  simp only [packed_eq, List.map_cons, List.map_nil, sum_cons, List.sum_nil, seqWord, flag_toNat, nat_add_zero]
  have : s.phase.plane.toNat + 2 * s.phase.blink.toNat + 4 * s.phase.blankAll.toNat = bitsAt 0 1 s.phase.plane.toNat + (bitsAt 1 1 s.phase.blink.toNat + bitsAt 2 1 s.phase.blankAll.toNat) := by
    cases s.phase.plane <;> cases s.phase.blink <;> cases s.phase.blankAll <;> rfl
  rw [this]

/-- The words of the Event line (R165). -/
theorem eventWords_eq (s : State) : eventWords s (seqNext s.report.seqEvent) = s.eventLine := by
  unfold eventWords State.eventLine
  simp only [packed_eq, List.map_cons, List.map_nil, sum_cons, List.sum_nil, seqWord, nat_add_zero, seqNext_eq]
  have h : ∀ b : BitVec 14, bitsAt 0 14 b.toNat = b.toNat := by intro b; have := b.isLt; simp only [bitsAt, Nat.pow_zero, Nat.mul_one]; exact Nat.mod_eq_of_lt this
  rw [h, h]
  cases s.report.lastBad with
  | none => rfl
  | some x => obtain ⟨a, b, c⟩ := x; simp only [Nat.add_assoc]

/-- The words of the Counter line (R166). -/
theorem counterWords_eq (s : State) : counterWords s.report.counters (seqNext s.report.seqCounter) = s.counterLine := by
  unfold counterWords State.counterLine
  simp only [packed_eq, List.map_cons, List.map_nil, sum_cons, List.sum_nil, seqWord, halves, nat_add_zero, seqNext_eq]
  rw [show List.range 7 = [0, 1, 2, 3, 4, 5, 6] from rfl]
  simp only [List.map_cons, List.map_nil, List.cons_append, List.nil_append, Nat.reduceMul, Nat.reduceAdd]

/-- A word that begins with an estimate's fields. -/
theorem estimateFields_eq (e : Estimate) (r : List (Nat × Nat × Nat)) : word ((estimateFields e ++ r).map fun f => bitsAt f.1 f.2.1 f.2.2).sum = word (e.bits + (r.map fun f => bitsAt f.1 f.2.1 f.2.2).sum) := by
  unfold estimateFields Estimate.bits
  split
  · simp only [flag_toNat, Nat.add_assoc, List.cons_append, List.nil_append, List.map_cons, sum_cons]
  · simp only [List.nil_append, Nat.zero_add]
theorem word_bits32 (v : Nat) : word v = word (bitsAt 0 32 v) := by
  apply BitVec.eq_of_toNat_eq; simp [word, bitsAt]

/-- The words of the Position line (R168). -/
theorem positionWords_eq (s : State) : positionWords s.positionFields (seqNext s.report.seqPosition) = s.positionLine := by
  have hr : s.positionFields.remaining = s.route.targetEntry.map fun e => (e.postMm - s.odo.position) / 1000 := by
    show s.remaining.map (· / 1000) = _
    unfold State.remaining; cases s.route.targetEntry <;> simp
  unfold positionWords State.positionLine
  simp only [packed_eq, estimateFields_eq, seqWord, halves, flag_toNat, seqNext_eq]
  rw [hr, word_bits32 s.positionFields.posM]
  generalize (Option.map (fun e : StopEntry => (e.postMm - s.odo.position) / 1000) s.route.targetEntry).getD 4294967295 = z
  rw [word_bits32 z]
  simp only [List.map_cons, List.map_nil, sum_cons, List.sum_nil, nat_add_zero, Nat.add_assoc, State.positionFields]

/-- The words of the Arrival line (R170). -/
theorem arrivalWords_eq (s : State) : arrivalWords s.report.arrival (seqNext s.report.seqArrival) = s.arrivalLine := by
  unfold arrivalWords State.arrivalLine
  simp only [packed_eq, seqWord, halves, seqNext_eq, List.map_cons, List.map_nil, sum_cons, List.sum_nil, nat_add_zero]
  rw [word_bits32 s.report.arrival.posM]
  simp only [show bitsAt 16 16 0 = 0 from rfl, nat_add_zero]

/-- The words of the Banner line (R81). -/
theorem bannerWords_eq (s : State) : bannerWords s.bannerFields = s.bannerLine := by
  have hb : ∀ e : Estimate, word e.bits = word ((estimateFields e).map fun f => bitsAt f.1 f.2.1 f.2.2).sum := by
    intro e; have := estimateFields_eq e []; simp only [List.append_nil, List.map_nil, List.sum_nil, nat_add_zero] at this; exact this.symm
  unfold bannerWords State.bannerLine State.stopWords
  simp only [packed_eq, seqWord, halves, hb]
  cases h : s.notices.shownEntry with
  | none =>
    have : s.bannerFields = { cls := none, stage := none, id := 0, text := 0, stop := 0, textBase := 0, side := .none, est := {}, expected := none, lateness := none, seq := s.notices.seq } := by
      unfold State.bannerFields State.bannerStopEntry State.bannerStop; rw [h]; rfl
    rw [this]
    simp only [List.map_cons, List.map_nil, sum_cons, List.sum_nil, nat_add_zero]
    rfl
  | some n =>
    have hs : s.bannerStop = s.spokenStop n := by cases ha : n.auto <;> simp [State.bannerStop, State.spokenStop, h, ha]
    have he : s.bannerStopEntry = (s.spokenStop n).bind s.route.entry := by unfold State.bannerStopEntry; rw [hs]
    have hd : (s.bannerStop.isSome && decide (s.bannerStop = s.route.target)) = decide ((s.spokenStop n).isSome = true ∧ s.spokenStop n = s.route.target) := by simp [hs]
    have f1 : s.bannerFields.est = if (decide ((s.spokenStop n).isSome = true ∧ s.spokenStop n = s.route.target)) = true then s.odo.est else {} := by rw [← hd]; rfl
    have f2 : s.bannerFields.expected = if (decide ((s.spokenStop n).isSome = true ∧ s.spokenStop n = s.route.target)) = true then s.expected else none := by rw [← hd]; rfl
    have f3 : s.bannerFields.lateness = if (decide ((s.spokenStop n).isSome = true ∧ s.spokenStop n = s.route.target)) = true then s.lateness else none := by rw [← hd]; rfl
    have f4 : s.bannerFields.side.code = ((((s.spokenStop n).bind s.route.entry).map fun e => (e.side.shown s.route.reversed).code).getD 0) := by
      rw [← he]; show (match s.bannerStopEntry with | some e => _ | none => _ : Side).code = _
      cases s.bannerStopEntry <;> rfl
    have f5 : s.bannerFields.stop = (((s.spokenStop n).bind s.route.entry).map (·.code)).getD 0 := by rw [← he]; rfl
    have f6 : s.bannerFields.textBase = (((s.spokenStop n).bind s.route.entry).map (·.textBase)).getD 0 := by rw [← he]; rfl
    have f7 : s.bannerFields.cls = some n.cls := by show s.notices.shownEntry.map _ = _; rw [h]; rfl
    have f8 : s.bannerFields.stage = n.auto.map (·.1) := by show s.notices.shownEntry.bind _ = _; rw [h]; rfl
    have f9 : s.bannerFields.id = n.id := by show (s.notices.shownEntry.map _).getD 0 = _; rw [h]; rfl
    have f10 : s.bannerFields.text = n.text := by show (s.notices.shownEntry.map _).getD 0 = _; rw [h]; rfl
    have f11 : s.bannerFields.seq = s.notices.seq := rfl
    rw [f1, f2, f3, f4, f5, f6, f7, f8, f9, f10, f11]
    by_cases hq : (s.spokenStop n).isSome = true ∧ s.spokenStop n = s.route.target
    · have hd2 : ∀ i : Decidable ((s.spokenStop n).isSome = true ∧ s.spokenStop n = s.route.target), @decide _ i = true := fun i => decide_eq_true hq
      simp only [hd2, if_true, List.map_cons, List.map_nil, sum_cons, List.sum_nil, nat_add_zero, Nat.add_assoc, show bitsAt 16 16 0 = 0 from rfl]
    · have hd2 : ∀ i : Decidable ((s.spokenStop n).isSome = true ∧ s.spokenStop n = s.route.target), @decide _ i = false := fun i => decide_eq_false hq
      simp only [hd2, Bool.false_eq_true, if_false, List.map_cons, List.map_nil, sum_cons, List.sum_nil, nat_add_zero, Nat.add_assoc, show bitsAt 16 16 0 = 0 from rfl]
      rfl

/-- The words of a strip line (R24). -/
theorem State.stripWords_eq (s : State) (i : Nat) : s.stripWords i (seqNext s.route.stripSeq) = s.stripLine i := by
  unfold State.stripWords State.stripLine stripIndex
  simp only [packed_eq, halves, seqNext_eq]
  cases h : s.route.entry (if s.route.reversed then 47 - i else i) with
  | none => simp only [List.map_cons, List.map_nil, sum_cons, List.sum_nil, nat_add_zero, show bitsAt 16 16 0 = 0 from rfl, minuteCode_none, latenessCode_none]
  | some e =>
    unfold State.stripTimes
    cases he : e.status <;> simp only [he, List.map_cons, List.map_nil, sum_cons, List.sum_nil, nat_add_zero, show bitsAt 16 16 0 = 0 from rfl, reduceCtorEq, if_true, if_false, false_and, true_and]

/-- The words of a seat label line (R57). -/
theorem seatWords_eq (c : SeatContent) (seq : Nat) : seatWords c (seqNext seq) = seatLine c seq := by
  unfold seatWords seatLine
  simp only [packed_eq, halves, seqNext_eq, List.map_cons, List.map_nil, sum_cons, List.sum_nil, nat_add_zero, Nat.add_assoc, show bitsAt 16 16 0 = 0 from rfl]

theorem State.reportLine_none (s : State) (i : Nat) (h : s.router.map.report.len ≤ i) : s.reportLine i = none := by
  unfold State.reportLine; rw [if_neg (by omega)]
theorem State.reportLine_some (s : State) (i : Nat) (h : i < s.router.map.report.len) : s.reportLine i = some (s.router.map.report.base + i) := by
  unfold State.reportLine; rw [if_pos h]

/-- The store can take a line it holds, and any line while it has a free place (R88). -/
theorem canTake_iff (st : List Entry) (l : Nat) : canTake st l = true ↔ ((∃ e ∈ st, e.line = l) ∨ st.length < 32) := by
  unfold canTake heldEntry
  rw [Bool.or_eq_true, List.find?_isSome]
  refine or_congr (by simp) ⟨fun h => of_decide_eq_true h, fun h => decide_eq_true h⟩
theorem canTake_false_iff (st : List Entry) (l : Nat) : canTake st l = false ↔ ((∀ e ∈ st, e.line ≠ l) ∧ 32 ≤ st.length) := by
  rw [← Bool.not_eq_true, canTake_iff]; simp
theorem takeOffer_lines_held (st : List Entry) (l : Nat) (w) (ws) (h : ∃ e ∈ st, e.line = l) : (takeOffer st l w ws).map (·.line) = st.map (·.line) := by
  have : (heldEntry st l).isSome = true := by unfold heldEntry; simpa [List.find?_isSome] using h
  unfold takeOffer; rw [if_pos this, List.map_map]
  apply List.map_congr_left; intro e _; simp only [Function.comp]; split
  · unfold Entry.take; split <;> rfl
  · rfl
theorem canTake_of_lines (a b : List Entry) (h : a.map (·.line) = b.map (·.line)) (l : Nat) : canTake a l = canTake b l := by
  have hl : a.length = b.length := by have := congrArg List.length h; simpa using this
  have hm : (∃ e ∈ a, e.line = l) ↔ ∃ e ∈ b, e.line = l := by
    have : l ∈ a.map (·.line) ↔ l ∈ b.map (·.line) := by rw [h]
    simpa using this
  rw [Bool.eq_iff_iff, canTake_iff, canTake_iff, hl, hm]

/-- A line without a place stays without one after another offer. -/
theorem canTake_stays_false (st : List Entry) (l l0 : Nat) (w ws) (h : canTake st l = false) (h0 : canTake st l0 = true) : canTake (takeOffer st l0 w ws) l = false := by
  have h1 := (canTake_false_iff st l).mp h
  have h2 := (canTake_iff st l0).mp h0
  have h3 : ∃ e ∈ st, e.line = l0 := by rcases h2 with h2 | h2; exact h2; omega
  rw [canTake_of_lines _ st (takeOffer_lines_held st l0 w ws h3)]; exact h

/-- What a composer's offer keeps: the map, the part state and the read latch; it makes nothing pending, and a line without a
place in the Line Store stays without one. -/
structure OfferKeeps (s t : State) : Prop where
  map : t.router.map = s.router.map
  act : t.active = s.active
  latch : t.report.latch = s.report.latch
  fp : t.phase.pending = true → s.phase.pending = true
  fe : t.report.pendEvent = true → s.report.pendEvent = true
  fc : t.report.pendCounter = true → s.report.pendCounter = true
  fo : t.report.pendPosition = true → s.report.pendPosition = true
  fa : t.report.pendArrival = true → s.report.pendArrival = true
  fb : t.notices.bannerPending = true → s.notices.bannerPending = true
  st : ∀ l, canTake s.store l = false → canTake t.store l = false
theorem OfferKeeps.refl (s : State) : OfferKeeps s s := ⟨rfl, rfl, rfl, id, id, id, id, id, id, fun _ => id⟩
theorem OfferKeeps.trans {a b c : State} (x : OfferKeeps a b) (y : OfferKeeps b c) : OfferKeeps a c :=
  ⟨y.map.trans x.map, y.act.trans x.act, y.latch.trans x.latch, fun h => x.fp (y.fp h), fun h => x.fe (y.fe h), fun h => x.fc (y.fc h), fun h => x.fo (y.fo h), fun h => x.fa (y.fa h), fun h => x.fb (y.fb h), fun l h => y.st l (x.st l h)⟩

theorem State.reportLine_cases (s : State) (i : Nat) : (s.reportLine i = none ∧ s.router.map.report.len ≤ i) ∨ (s.reportLine i = some (s.router.map.report.base + i) ∧ i < s.router.map.report.len) := by
  by_cases h : i < s.router.map.report.len
  · exact .inr ⟨State.reportLine_some s i h, h⟩
  · exact .inl ⟨State.reportLine_none s i (by omega), by omega⟩

/-- A REPORT line exists and the Line Store has no place for it. -/
def State.NoPlace (s : State) (i : Nat) : Prop := i < s.router.map.report.len ∧ canTake s.store (s.router.map.report.base + i) = false
theorem State.NoPlace.keeps {s t : State} {i : Nat} (x : OfferKeeps s t) (h : s.NoPlace i) : t.NoPlace i := by
  unfold State.NoPlace at *; rw [x.map]; exact ⟨h.1, x.st _ h.2⟩

/-- After its offer a composer is still pending only for want of a place. -/
theorem State.offerPhase_leaves (s : State) : OfferKeeps s s.offerPhase ∧ (s.offerPhase.phase.pending = true → s.offerPhase.NoPlace 4) ∧ s.offerPhase.route = s.route ∧ s.offerPhase.seats = s.seats := by
  cases hp : s.phase.pending with
  | false => rw [State.offerPhase_none s hp]; exact ⟨OfferKeeps.refl s, fun h => by simp [hp] at h, rfl, rfl⟩
  | true =>
    unfold State.offerPhase
    rw [hp, if_pos rfl]
    rcases State.reportLine_cases s 4 with ⟨h, hl⟩ | ⟨h, hl⟩
    · rw [h]; exact ⟨⟨rfl, rfl, rfl, (by intro h; cases h), id, id, id, id, id, fun _ => id⟩, (by intro h; cases h), rfl, rfl⟩
    · rw [h]; dsimp only
      cases hc : canTake s.store (s.router.map.report.base + 4) with
      | true => rw [if_pos rfl]; exact ⟨⟨rfl, rfl, rfl, (by intro h; cases h), id, id, id, id, id, fun l hl => canTake_stays_false _ _ _ _ _ hl hc⟩, (by intro h; cases h), rfl, rfl⟩
      | false => rw [if_neg (by simp)]; exact ⟨OfferKeeps.refl s, fun _ => ⟨hl, hc⟩, rfl, rfl⟩
theorem State.offerEvent_leaves (s : State) : OfferKeeps s s.offerEvent ∧ (s.offerEvent.report.pendEvent = true → s.offerEvent.NoPlace 0) ∧ s.offerEvent.route = s.route ∧ s.offerEvent.seats = s.seats := by
  cases hp : s.report.pendEvent with
  | false => rw [State.offerEvent_none s hp]; exact ⟨OfferKeeps.refl s, fun h => by simp [hp] at h, rfl, rfl⟩
  | true =>
    unfold State.offerEvent
    rw [hp, if_pos rfl]
    rcases State.reportLine_cases s 0 with ⟨h, hl⟩ | ⟨h, hl⟩
    · rw [h]; exact ⟨⟨rfl, rfl, rfl, id, (by intro h; cases h), id, id, id, id, fun _ => id⟩, (by intro h; cases h), rfl, rfl⟩
    · rw [h]; dsimp only
      cases hc : canTake s.store (s.router.map.report.base + 0) with
      | true => rw [if_pos rfl]; exact ⟨⟨rfl, rfl, rfl, id, (by intro h; cases h), id, id, id, id, fun l hl => canTake_stays_false _ _ _ _ _ hl hc⟩, (by intro h; cases h), rfl, rfl⟩
      | false => rw [if_neg (by simp)]; exact ⟨OfferKeeps.refl s, fun _ => ⟨hl, hc⟩, rfl, rfl⟩
theorem State.offerCounter_leaves (s : State) : OfferKeeps s s.offerCounter ∧ (s.offerCounter.report.pendCounter = true → s.offerCounter.NoPlace 1) ∧ s.offerCounter.route = s.route ∧ s.offerCounter.seats = s.seats := by
  cases hp : s.report.pendCounter with
  | false => rw [State.offerCounter_none s hp]; exact ⟨OfferKeeps.refl s, fun h => by simp [hp] at h, rfl, rfl⟩
  | true =>
    unfold State.offerCounter
    rw [hp, if_pos rfl]
    rcases State.reportLine_cases s 1 with ⟨h, hl⟩ | ⟨h, hl⟩
    · rw [h]; exact ⟨⟨rfl, rfl, rfl, id, id, (by intro h; cases h), id, id, id, fun _ => id⟩, (by intro h; cases h), rfl, rfl⟩
    · rw [h]; dsimp only
      cases hc : canTake s.store (s.router.map.report.base + 1) with
      | true => rw [if_pos rfl]; exact ⟨⟨rfl, rfl, rfl, id, id, (by intro h; cases h), id, id, id, fun l hl => canTake_stays_false _ _ _ _ _ hl hc⟩, (by intro h; cases h), rfl, rfl⟩
      | false => rw [if_neg (by simp)]; exact ⟨OfferKeeps.refl s, fun _ => ⟨hl, hc⟩, rfl, rfl⟩

/-- The Position line may also wait for its latch (R169). -/
theorem State.offerPosition_leaves (s : State) : OfferKeeps s s.offerPosition ∧ (s.offerPosition.report.pendPosition = true → 2 < s.offerPosition.router.map.report.len ∧ (s.offerPosition.report.latch ≠ none ∨ canTake s.offerPosition.store (s.offerPosition.router.map.report.base + 2) = false)) ∧ s.offerPosition.route = s.route ∧ s.offerPosition.seats = s.seats := by
  cases hp : s.report.pendPosition with
  | false => rw [State.offerPosition_none s hp]; exact ⟨OfferKeeps.refl s, fun h => by simp [hp] at h, rfl, rfl⟩
  | true =>
    unfold State.offerPosition
    rw [hp, if_pos rfl]
    rcases State.reportLine_cases s 2 with ⟨h, hl⟩ | ⟨h, hl⟩
    · rw [h]; exact ⟨⟨rfl, rfl, rfl, id, id, id, (by intro h; cases h), id, id, fun _ => id⟩, (by intro h; cases h), rfl, rfl⟩
    · rw [h]; dsimp only
      cases hc : s.report.latch.isNone && canTake s.store (s.router.map.report.base + 2) with
      | true =>
        rw [if_pos rfl]
        have hc' : canTake s.store (s.router.map.report.base + 2) = true := by simp at hc; exact hc.2
        exact ⟨⟨rfl, rfl, rfl, id, id, id, (by intro h; cases h), id, id, fun l hl => canTake_stays_false _ _ _ _ _ hl hc'⟩, (by intro h; cases h), rfl, rfl⟩
      | false =>
        rw [if_neg (by simp)]; refine ⟨OfferKeeps.refl s, fun _ => ⟨hl, ?_⟩, rfl, rfl⟩
        cases hlat : s.report.latch with
        | none => right; simpa [hlat] using hc
        | some x => left; simp
theorem State.offerArrival_leaves (s : State) : OfferKeeps s s.offerArrival ∧ (s.offerArrival.report.pendArrival = true → s.offerArrival.NoPlace 3) ∧ s.offerArrival.route = s.route ∧ s.offerArrival.seats = s.seats := by
  cases hp : s.report.pendArrival with
  | false => rw [State.offerArrival_none s hp]; exact ⟨OfferKeeps.refl s, fun h => by simp [hp] at h, rfl, rfl⟩
  | true =>
    unfold State.offerArrival
    rw [hp, if_pos rfl]
    rcases State.reportLine_cases s 3 with ⟨h, hl⟩ | ⟨h, hl⟩
    · rw [h]; exact ⟨⟨rfl, rfl, rfl, id, id, id, id, (by intro h; cases h), id, fun _ => id⟩, (by intro h; cases h), rfl, rfl⟩
    · rw [h]; dsimp only
      cases hc : canTake s.store (s.router.map.report.base + 3) with
      | true => rw [if_pos rfl]; exact ⟨⟨rfl, rfl, rfl, id, id, id, id, (by intro h; cases h), id, fun l hl => canTake_stays_false _ _ _ _ _ hl hc⟩, (by intro h; cases h), rfl, rfl⟩
      | false => rw [if_neg (by simp)]; exact ⟨OfferKeeps.refl s, fun _ => ⟨hl, hc⟩, rfl, rfl⟩
theorem State.offerBanner_leaves (s : State) : OfferKeeps s s.offerBanner ∧ (s.offerBanner.notices.bannerPending = true → s.offerBanner.NoPlace 5) ∧ s.offerBanner.route = s.route ∧ s.offerBanner.seats = s.seats := by
  cases hp : s.notices.bannerPending with
  | false => rw [State.offerBanner_none s hp]; exact ⟨OfferKeeps.refl s, fun h => by simp [hp] at h, rfl, rfl⟩
  | true =>
    unfold State.offerBanner
    rw [hp, if_pos rfl]
    rcases State.reportLine_cases s 5 with ⟨h, hl⟩ | ⟨h, hl⟩
    · rw [h]; exact ⟨⟨rfl, rfl, rfl, id, id, id, id, id, (by intro h; cases h), fun _ => id⟩, (by intro h; cases h), rfl, rfl⟩
    · rw [h]; dsimp only
      cases hc : canTake s.store (s.router.map.report.base + 5) with
      | true => rw [if_pos rfl]; exact ⟨⟨rfl, rfl, rfl, id, id, id, id, id, (by intro h; cases h), fun l hl => canTake_stays_false _ _ _ _ _ hl hc⟩, (by intro h; cases h), rfl, rfl⟩
      | false => rw [if_neg (by simp)]; exact ⟨OfferKeeps.refl s, fun _ => ⟨hl, hc⟩, rfl, rfl⟩

/-- The lowest strip line left has no place. -/
theorem State.offerStrips_leaves (is : List Nat) : ∀ s : State, OfferKeeps s (s.offerStrips is) ∧ (∀ i r, (s.offerStrips is).route.stripPending = i :: r → canTake (s.offerStrips is).store ((s.offerStrips is).router.map.routeStrip.base + i) = false) := by
  induction is with
  | nil => intro s; exact ⟨⟨rfl, rfl, rfl, id, id, id, id, id, id, fun _ => id⟩, fun i r h => by cases h⟩
  | cons i is ih =>
    intro s; unfold State.offerStrips
    cases hc : canTake s.store (s.router.map.routeStrip.base + i) with
    | true =>
      rw [if_pos rfl]
      have h1 : OfferKeeps s (s.takeStrip i) := ⟨rfl, rfl, rfl, id, id, id, id, id, id, fun l hl => canTake_stays_false _ _ _ _ _ hl hc⟩
      exact ⟨h1.trans (ih _).1, (ih _).2⟩
    | false =>
      rw [if_neg (by simp)]
      exact ⟨⟨rfl, rfl, rfl, id, id, id, id, id, id, fun _ => id⟩, fun j r h => by cases h; exact hc⟩

/-- The lowest seat left has changed content and no place. -/
theorem State.offerSeats_leaves (ns : List Nat) : ∀ s : State, OfferKeeps s (s.offerSeats ns) ∧ (s.offerSeats ns).route = s.route ∧ (∀ n r, (s.offerSeats ns).seats.pending = n :: r → canTake (s.offerSeats ns).store ((s.offerSeats ns).router.map.seatLabel.base + n) = false ∧ (((s.offerSeats ns).seats.recs.getD n {}).composed = false ∨ ((s.offerSeats ns).seats.recs.getD n {}).last ≠ resolveSeat (s.offerSeats ns).route (s.offerSeats ns).seats n)) := by
  induction ns with
  | nil => intro s; exact ⟨⟨rfl, rfl, rfl, id, id, id, id, id, id, fun _ => id⟩, rfl, fun i r h => by cases h⟩
  | cons i is ih =>
    intro s; unfold State.offerSeats
    dsimp only
    cases hu : (s.seats.recs.getD i {}).composed && decide ((s.seats.recs.getD i {}).last = resolveSeat s.route s.seats i) with
    | true => rw [if_pos rfl]; exact ih s
    | false =>
      rw [if_neg (by simp)]
      cases hc : canTake s.store (s.router.map.seatLabel.base + i) with
      | true =>
        rw [if_pos rfl]
        have h1 : OfferKeeps s (s.takeSeat i (resolveSeat s.route s.seats i)) := ⟨rfl, rfl, rfl, id, id, id, id, id, id, fun l hl => canTake_stays_false _ _ _ _ _ hl hc⟩
        exact ⟨h1.trans (ih _).1, (ih _).2.1, (ih _).2.2⟩
      | false =>
        rw [if_neg (by simp)]
        refine ⟨⟨rfl, rfl, rfl, id, id, id, id, id, id, fun _ => id⟩, rfl, fun j r h => ?_⟩
        cases h
        refine ⟨hc, ?_⟩
        have hr : ∀ p, resolveSeat s.route { s.seats with pending := p } i = resolveSeat s.route s.seats i := fun p => rfl
        show (s.seats.recs.getD i {}).composed = false ∨ (s.seats.recs.getD i {}).last ≠ resolveSeat s.route { s.seats with pending := _ } i
        rw [hr]
        cases hcomp : (s.seats.recs.getD i {}).composed with
        | false => exact .inl rfl
        | true => right; intro he; rw [hcomp, he] at hu; simp at hu

/-- After the offers at the end of a step no offer that the store can take stands (R88). -/
theorem State.settle_leaves (s : State) : s.settle.Settled := by
  cases ha : s.active with
  | false => rw [State.settle_inactive s ha]; intro h; rw [ha] at h; cases h
  | true =>
    rw [State.settle_active s ha]
    intro _
    obtain ⟨a1, a2, _, _⟩ := State.offerPhase_leaves s
    obtain ⟨b1, b2, _, _⟩ := State.offerEvent_leaves s.offerPhase
    obtain ⟨c1, c2, _, _⟩ := State.offerCounter_leaves s.offerPhase.offerEvent
    obtain ⟨d1, d2, _, _⟩ := State.offerPosition_leaves s.offerPhase.offerEvent.offerCounter
    obtain ⟨e1, e2, _, _⟩ := State.offerArrival_leaves s.offerPhase.offerEvent.offerCounter.offerPosition
    obtain ⟨f1, f2, _, _⟩ := State.offerBanner_leaves s.offerPhase.offerEvent.offerCounter.offerPosition.offerArrival
    generalize ht : s.offerPhase.offerEvent.offerCounter.offerPosition.offerArrival.offerBanner = t at *
    obtain ⟨g1, g2⟩ := State.offerStrips_leaves t.route.stripPending t
    obtain ⟨h1, hr, h2⟩ := State.offerSeats_leaves (t.offerStrips t.route.stripPending).seats.pending (t.offerStrips t.route.stripPending)
    dsimp only
    generalize hu : t.offerStrips t.route.stripPending = u at *
    have z5 := f1.trans (g1.trans h1)
    have z4 := e1.trans z5
    have z3 := d1.trans z4
    have z2 := c1.trans z3
    have z1 := b1.trans z2
    refine ⟨fun h => (a2 (z1.fp h)).keeps (z1), fun h => (b2 (z2.fe h)).keeps (z2), fun h => (c2 (z3.fc h)).keeps (z3), fun h => ?_, fun h => (e2 (z5.fa h)).keeps (z5), fun h => (f2 ((g1.trans h1).fb h)).keeps (g1.trans h1), fun i r h => ?_, h2⟩
    · obtain ⟨p, q⟩ := d2 (z4.fo h)
      rw [z4.map, z4.latch]
      exact ⟨p, q.imp_right (z4.st _)⟩
    · rw [hr] at h
      have := g2 i r h
      rw [h1.map]; exact h1.st _ this

end Sys2Proof.Machine
end

