-- ==== Sys2Proof/Laws/State.lean ====
section
/-! SUPPORT. One lemma per block per replacement: what reading a block gives after one block has been replaced. -/

namespace Sys2Proof.Machine

variable (s : State)

/-! `setPins` -/

@[simp] theorem State.setPins_pins (x : Pins) : (s.setPins x).pins = x := rfl
@[simp] theorem State.setPins_loader (x : Pins) : (s.setPins x).loader = s.loader := rfl
@[simp] theorem State.setPins_router (x : Pins) : (s.setPins x).router = s.router := rfl
@[simp] theorem State.setPins_windows (x : Pins) : (s.setPins x).windows = s.windows := rfl
@[simp] theorem State.setPins_arb (x : Pins) : (s.setPins x).arb = s.arb := rfl
@[simp] theorem State.setPins_intake (x : Pins) : (s.setPins x).intake = s.intake := rfl
@[simp] theorem State.setPins_route (x : Pins) : (s.setPins x).route = s.route := rfl
@[simp] theorem State.setPins_odo (x : Pins) : (s.setPins x).odo = s.odo := rfl
@[simp] theorem State.setPins_seats (x : Pins) : (s.setPins x).seats = s.seats := rfl
@[simp] theorem State.setPins_notices (x : Pins) : (s.setPins x).notices = s.notices := rfl
@[simp] theorem State.setPins_store (x : Pins) : (s.setPins x).store = s.store := rfl
@[simp] theorem State.setPins_phase (x : Pins) : (s.setPins x).phase = s.phase := rfl
@[simp] theorem State.setPins_report (x : Pins) : (s.setPins x).report = s.report := rfl
@[simp] theorem State.setPins_mem (x : Pins) : (s.setPins x).mem = s.mem := rfl
@[simp] theorem State.setPins_free (x : Pins) : (s.setPins x).free = s.free := rfl
@[simp] theorem State.setPins_pending (x : Pins) : (s.setPins x).pending = s.pending := rfl

/-! `setLoader` -/

@[simp] theorem State.setLoader_pins (x : Loader) : (s.setLoader x).pins = s.pins := rfl
@[simp] theorem State.setLoader_loader (x : Loader) : (s.setLoader x).loader = x := rfl
@[simp] theorem State.setLoader_router (x : Loader) : (s.setLoader x).router = s.router := rfl
@[simp] theorem State.setLoader_windows (x : Loader) : (s.setLoader x).windows = s.windows := rfl
@[simp] theorem State.setLoader_arb (x : Loader) : (s.setLoader x).arb = s.arb := rfl
@[simp] theorem State.setLoader_intake (x : Loader) : (s.setLoader x).intake = s.intake := rfl
@[simp] theorem State.setLoader_route (x : Loader) : (s.setLoader x).route = s.route := rfl
@[simp] theorem State.setLoader_odo (x : Loader) : (s.setLoader x).odo = s.odo := rfl
@[simp] theorem State.setLoader_seats (x : Loader) : (s.setLoader x).seats = s.seats := rfl
@[simp] theorem State.setLoader_notices (x : Loader) : (s.setLoader x).notices = s.notices := rfl
@[simp] theorem State.setLoader_store (x : Loader) : (s.setLoader x).store = s.store := rfl
@[simp] theorem State.setLoader_phase (x : Loader) : (s.setLoader x).phase = s.phase := rfl
@[simp] theorem State.setLoader_report (x : Loader) : (s.setLoader x).report = s.report := rfl
@[simp] theorem State.setLoader_mem (x : Loader) : (s.setLoader x).mem = s.mem := rfl
@[simp] theorem State.setLoader_free (x : Loader) : (s.setLoader x).free = s.free := rfl
@[simp] theorem State.setLoader_pending (x : Loader) : (s.setLoader x).pending = s.pending := rfl

/-! `setRouter` -/

@[simp] theorem State.setRouter_pins (x : Router) : (s.setRouter x).pins = s.pins := rfl
@[simp] theorem State.setRouter_loader (x : Router) : (s.setRouter x).loader = s.loader := rfl
@[simp] theorem State.setRouter_router (x : Router) : (s.setRouter x).router = x := rfl
@[simp] theorem State.setRouter_windows (x : Router) : (s.setRouter x).windows = s.windows := rfl
@[simp] theorem State.setRouter_arb (x : Router) : (s.setRouter x).arb = s.arb := rfl
@[simp] theorem State.setRouter_intake (x : Router) : (s.setRouter x).intake = s.intake := rfl
@[simp] theorem State.setRouter_route (x : Router) : (s.setRouter x).route = s.route := rfl
@[simp] theorem State.setRouter_odo (x : Router) : (s.setRouter x).odo = s.odo := rfl
@[simp] theorem State.setRouter_seats (x : Router) : (s.setRouter x).seats = s.seats := rfl
@[simp] theorem State.setRouter_notices (x : Router) : (s.setRouter x).notices = s.notices := rfl
@[simp] theorem State.setRouter_store (x : Router) : (s.setRouter x).store = s.store := rfl
@[simp] theorem State.setRouter_phase (x : Router) : (s.setRouter x).phase = s.phase := rfl
@[simp] theorem State.setRouter_report (x : Router) : (s.setRouter x).report = s.report := rfl
@[simp] theorem State.setRouter_mem (x : Router) : (s.setRouter x).mem = s.mem := rfl
@[simp] theorem State.setRouter_free (x : Router) : (s.setRouter x).free = s.free := rfl
@[simp] theorem State.setRouter_pending (x : Router) : (s.setRouter x).pending = s.pending := rfl

/-! `setWindows` -/

@[simp] theorem State.setWindows_pins (x : Windows) : (s.setWindows x).pins = s.pins := rfl
@[simp] theorem State.setWindows_loader (x : Windows) : (s.setWindows x).loader = s.loader := rfl
@[simp] theorem State.setWindows_router (x : Windows) : (s.setWindows x).router = s.router := rfl
@[simp] theorem State.setWindows_windows (x : Windows) : (s.setWindows x).windows = x := rfl
@[simp] theorem State.setWindows_arb (x : Windows) : (s.setWindows x).arb = s.arb := rfl
@[simp] theorem State.setWindows_intake (x : Windows) : (s.setWindows x).intake = s.intake := rfl
@[simp] theorem State.setWindows_route (x : Windows) : (s.setWindows x).route = s.route := rfl
@[simp] theorem State.setWindows_odo (x : Windows) : (s.setWindows x).odo = s.odo := rfl
@[simp] theorem State.setWindows_seats (x : Windows) : (s.setWindows x).seats = s.seats := rfl
@[simp] theorem State.setWindows_notices (x : Windows) : (s.setWindows x).notices = s.notices := rfl
@[simp] theorem State.setWindows_store (x : Windows) : (s.setWindows x).store = s.store := rfl
@[simp] theorem State.setWindows_phase (x : Windows) : (s.setWindows x).phase = s.phase := rfl
@[simp] theorem State.setWindows_report (x : Windows) : (s.setWindows x).report = s.report := rfl
@[simp] theorem State.setWindows_mem (x : Windows) : (s.setWindows x).mem = s.mem := rfl
@[simp] theorem State.setWindows_free (x : Windows) : (s.setWindows x).free = s.free := rfl
@[simp] theorem State.setWindows_pending (x : Windows) : (s.setWindows x).pending = s.pending := rfl

/-! `setArb` -/

@[simp] theorem State.setArb_pins (x : Arbiter) : (s.setArb x).pins = s.pins := rfl
@[simp] theorem State.setArb_loader (x : Arbiter) : (s.setArb x).loader = s.loader := rfl
@[simp] theorem State.setArb_router (x : Arbiter) : (s.setArb x).router = s.router := rfl
@[simp] theorem State.setArb_windows (x : Arbiter) : (s.setArb x).windows = s.windows := rfl
@[simp] theorem State.setArb_arb (x : Arbiter) : (s.setArb x).arb = x := rfl
@[simp] theorem State.setArb_intake (x : Arbiter) : (s.setArb x).intake = s.intake := rfl
@[simp] theorem State.setArb_route (x : Arbiter) : (s.setArb x).route = s.route := rfl
@[simp] theorem State.setArb_odo (x : Arbiter) : (s.setArb x).odo = s.odo := rfl
@[simp] theorem State.setArb_seats (x : Arbiter) : (s.setArb x).seats = s.seats := rfl
@[simp] theorem State.setArb_notices (x : Arbiter) : (s.setArb x).notices = s.notices := rfl
@[simp] theorem State.setArb_store (x : Arbiter) : (s.setArb x).store = s.store := rfl
@[simp] theorem State.setArb_phase (x : Arbiter) : (s.setArb x).phase = s.phase := rfl
@[simp] theorem State.setArb_report (x : Arbiter) : (s.setArb x).report = s.report := rfl
@[simp] theorem State.setArb_mem (x : Arbiter) : (s.setArb x).mem = s.mem := rfl
@[simp] theorem State.setArb_free (x : Arbiter) : (s.setArb x).free = s.free := rfl
@[simp] theorem State.setArb_pending (x : Arbiter) : (s.setArb x).pending = s.pending := rfl

/-! `setIntake` -/

@[simp] theorem State.setIntake_pins (x : Intake) : (s.setIntake x).pins = s.pins := rfl
@[simp] theorem State.setIntake_loader (x : Intake) : (s.setIntake x).loader = s.loader := rfl
@[simp] theorem State.setIntake_router (x : Intake) : (s.setIntake x).router = s.router := rfl
@[simp] theorem State.setIntake_windows (x : Intake) : (s.setIntake x).windows = s.windows := rfl
@[simp] theorem State.setIntake_arb (x : Intake) : (s.setIntake x).arb = s.arb := rfl
@[simp] theorem State.setIntake_intake (x : Intake) : (s.setIntake x).intake = x := rfl
@[simp] theorem State.setIntake_route (x : Intake) : (s.setIntake x).route = s.route := rfl
@[simp] theorem State.setIntake_odo (x : Intake) : (s.setIntake x).odo = s.odo := rfl
@[simp] theorem State.setIntake_seats (x : Intake) : (s.setIntake x).seats = s.seats := rfl
@[simp] theorem State.setIntake_notices (x : Intake) : (s.setIntake x).notices = s.notices := rfl
@[simp] theorem State.setIntake_store (x : Intake) : (s.setIntake x).store = s.store := rfl
@[simp] theorem State.setIntake_phase (x : Intake) : (s.setIntake x).phase = s.phase := rfl
@[simp] theorem State.setIntake_report (x : Intake) : (s.setIntake x).report = s.report := rfl
@[simp] theorem State.setIntake_mem (x : Intake) : (s.setIntake x).mem = s.mem := rfl
@[simp] theorem State.setIntake_free (x : Intake) : (s.setIntake x).free = s.free := rfl
@[simp] theorem State.setIntake_pending (x : Intake) : (s.setIntake x).pending = s.pending := rfl

/-! `setRoute` -/

@[simp] theorem State.setRoute_pins (x : Route) : (s.setRoute x).pins = s.pins := rfl
@[simp] theorem State.setRoute_loader (x : Route) : (s.setRoute x).loader = s.loader := rfl
@[simp] theorem State.setRoute_router (x : Route) : (s.setRoute x).router = s.router := rfl
@[simp] theorem State.setRoute_windows (x : Route) : (s.setRoute x).windows = s.windows := rfl
@[simp] theorem State.setRoute_arb (x : Route) : (s.setRoute x).arb = s.arb := rfl
@[simp] theorem State.setRoute_intake (x : Route) : (s.setRoute x).intake = s.intake := rfl
@[simp] theorem State.setRoute_route (x : Route) : (s.setRoute x).route = x := rfl
@[simp] theorem State.setRoute_odo (x : Route) : (s.setRoute x).odo = s.odo := rfl
@[simp] theorem State.setRoute_seats (x : Route) : (s.setRoute x).seats = s.seats := rfl
@[simp] theorem State.setRoute_notices (x : Route) : (s.setRoute x).notices = s.notices := rfl
@[simp] theorem State.setRoute_store (x : Route) : (s.setRoute x).store = s.store := rfl
@[simp] theorem State.setRoute_phase (x : Route) : (s.setRoute x).phase = s.phase := rfl
@[simp] theorem State.setRoute_report (x : Route) : (s.setRoute x).report = s.report := rfl
@[simp] theorem State.setRoute_mem (x : Route) : (s.setRoute x).mem = s.mem := rfl
@[simp] theorem State.setRoute_free (x : Route) : (s.setRoute x).free = s.free := rfl
@[simp] theorem State.setRoute_pending (x : Route) : (s.setRoute x).pending = s.pending := rfl

/-! `setOdo` -/

@[simp] theorem State.setOdo_pins (x : Odo) : (s.setOdo x).pins = s.pins := rfl
@[simp] theorem State.setOdo_loader (x : Odo) : (s.setOdo x).loader = s.loader := rfl
@[simp] theorem State.setOdo_router (x : Odo) : (s.setOdo x).router = s.router := rfl
@[simp] theorem State.setOdo_windows (x : Odo) : (s.setOdo x).windows = s.windows := rfl
@[simp] theorem State.setOdo_arb (x : Odo) : (s.setOdo x).arb = s.arb := rfl
@[simp] theorem State.setOdo_intake (x : Odo) : (s.setOdo x).intake = s.intake := rfl
@[simp] theorem State.setOdo_route (x : Odo) : (s.setOdo x).route = s.route := rfl
@[simp] theorem State.setOdo_odo (x : Odo) : (s.setOdo x).odo = x := rfl
@[simp] theorem State.setOdo_seats (x : Odo) : (s.setOdo x).seats = s.seats := rfl
@[simp] theorem State.setOdo_notices (x : Odo) : (s.setOdo x).notices = s.notices := rfl
@[simp] theorem State.setOdo_store (x : Odo) : (s.setOdo x).store = s.store := rfl
@[simp] theorem State.setOdo_phase (x : Odo) : (s.setOdo x).phase = s.phase := rfl
@[simp] theorem State.setOdo_report (x : Odo) : (s.setOdo x).report = s.report := rfl
@[simp] theorem State.setOdo_mem (x : Odo) : (s.setOdo x).mem = s.mem := rfl
@[simp] theorem State.setOdo_free (x : Odo) : (s.setOdo x).free = s.free := rfl
@[simp] theorem State.setOdo_pending (x : Odo) : (s.setOdo x).pending = s.pending := rfl

/-! `setSeats` -/

@[simp] theorem State.setSeats_pins (x : Seats) : (s.setSeats x).pins = s.pins := rfl
@[simp] theorem State.setSeats_loader (x : Seats) : (s.setSeats x).loader = s.loader := rfl
@[simp] theorem State.setSeats_router (x : Seats) : (s.setSeats x).router = s.router := rfl
@[simp] theorem State.setSeats_windows (x : Seats) : (s.setSeats x).windows = s.windows := rfl
@[simp] theorem State.setSeats_arb (x : Seats) : (s.setSeats x).arb = s.arb := rfl
@[simp] theorem State.setSeats_intake (x : Seats) : (s.setSeats x).intake = s.intake := rfl
@[simp] theorem State.setSeats_route (x : Seats) : (s.setSeats x).route = s.route := rfl
@[simp] theorem State.setSeats_odo (x : Seats) : (s.setSeats x).odo = s.odo := rfl
@[simp] theorem State.setSeats_seats (x : Seats) : (s.setSeats x).seats = x := rfl
@[simp] theorem State.setSeats_notices (x : Seats) : (s.setSeats x).notices = s.notices := rfl
@[simp] theorem State.setSeats_store (x : Seats) : (s.setSeats x).store = s.store := rfl
@[simp] theorem State.setSeats_phase (x : Seats) : (s.setSeats x).phase = s.phase := rfl
@[simp] theorem State.setSeats_report (x : Seats) : (s.setSeats x).report = s.report := rfl
@[simp] theorem State.setSeats_mem (x : Seats) : (s.setSeats x).mem = s.mem := rfl
@[simp] theorem State.setSeats_free (x : Seats) : (s.setSeats x).free = s.free := rfl
@[simp] theorem State.setSeats_pending (x : Seats) : (s.setSeats x).pending = s.pending := rfl

/-! `setNotices` -/

@[simp] theorem State.setNotices_pins (x : Notices) : (s.setNotices x).pins = s.pins := rfl
@[simp] theorem State.setNotices_loader (x : Notices) : (s.setNotices x).loader = s.loader := rfl
@[simp] theorem State.setNotices_router (x : Notices) : (s.setNotices x).router = s.router := rfl
@[simp] theorem State.setNotices_windows (x : Notices) : (s.setNotices x).windows = s.windows := rfl
@[simp] theorem State.setNotices_arb (x : Notices) : (s.setNotices x).arb = s.arb := rfl
@[simp] theorem State.setNotices_intake (x : Notices) : (s.setNotices x).intake = s.intake := rfl
@[simp] theorem State.setNotices_route (x : Notices) : (s.setNotices x).route = s.route := rfl
@[simp] theorem State.setNotices_odo (x : Notices) : (s.setNotices x).odo = s.odo := rfl
@[simp] theorem State.setNotices_seats (x : Notices) : (s.setNotices x).seats = s.seats := rfl
@[simp] theorem State.setNotices_notices (x : Notices) : (s.setNotices x).notices = x := rfl
@[simp] theorem State.setNotices_store (x : Notices) : (s.setNotices x).store = s.store := rfl
@[simp] theorem State.setNotices_phase (x : Notices) : (s.setNotices x).phase = s.phase := rfl
@[simp] theorem State.setNotices_report (x : Notices) : (s.setNotices x).report = s.report := rfl
@[simp] theorem State.setNotices_mem (x : Notices) : (s.setNotices x).mem = s.mem := rfl
@[simp] theorem State.setNotices_free (x : Notices) : (s.setNotices x).free = s.free := rfl
@[simp] theorem State.setNotices_pending (x : Notices) : (s.setNotices x).pending = s.pending := rfl

/-! `setStore` -/

@[simp] theorem State.setStore_pins (x : List Entry) : (s.setStore x).pins = s.pins := rfl
@[simp] theorem State.setStore_loader (x : List Entry) : (s.setStore x).loader = s.loader := rfl
@[simp] theorem State.setStore_router (x : List Entry) : (s.setStore x).router = s.router := rfl
@[simp] theorem State.setStore_windows (x : List Entry) : (s.setStore x).windows = s.windows := rfl
@[simp] theorem State.setStore_arb (x : List Entry) : (s.setStore x).arb = s.arb := rfl
@[simp] theorem State.setStore_intake (x : List Entry) : (s.setStore x).intake = s.intake := rfl
@[simp] theorem State.setStore_route (x : List Entry) : (s.setStore x).route = s.route := rfl
@[simp] theorem State.setStore_odo (x : List Entry) : (s.setStore x).odo = s.odo := rfl
@[simp] theorem State.setStore_seats (x : List Entry) : (s.setStore x).seats = s.seats := rfl
@[simp] theorem State.setStore_notices (x : List Entry) : (s.setStore x).notices = s.notices := rfl
@[simp] theorem State.setStore_store (x : List Entry) : (s.setStore x).store = x := rfl
@[simp] theorem State.setStore_phase (x : List Entry) : (s.setStore x).phase = s.phase := rfl
@[simp] theorem State.setStore_report (x : List Entry) : (s.setStore x).report = s.report := rfl
@[simp] theorem State.setStore_mem (x : List Entry) : (s.setStore x).mem = s.mem := rfl
@[simp] theorem State.setStore_free (x : List Entry) : (s.setStore x).free = s.free := rfl
@[simp] theorem State.setStore_pending (x : List Entry) : (s.setStore x).pending = s.pending := rfl

/-! `setPhase` -/

@[simp] theorem State.setPhase_pins (x : Phase) : (s.setPhase x).pins = s.pins := rfl
@[simp] theorem State.setPhase_loader (x : Phase) : (s.setPhase x).loader = s.loader := rfl
@[simp] theorem State.setPhase_router (x : Phase) : (s.setPhase x).router = s.router := rfl
@[simp] theorem State.setPhase_windows (x : Phase) : (s.setPhase x).windows = s.windows := rfl
@[simp] theorem State.setPhase_arb (x : Phase) : (s.setPhase x).arb = s.arb := rfl
@[simp] theorem State.setPhase_intake (x : Phase) : (s.setPhase x).intake = s.intake := rfl
@[simp] theorem State.setPhase_route (x : Phase) : (s.setPhase x).route = s.route := rfl
@[simp] theorem State.setPhase_odo (x : Phase) : (s.setPhase x).odo = s.odo := rfl
@[simp] theorem State.setPhase_seats (x : Phase) : (s.setPhase x).seats = s.seats := rfl
@[simp] theorem State.setPhase_notices (x : Phase) : (s.setPhase x).notices = s.notices := rfl
@[simp] theorem State.setPhase_store (x : Phase) : (s.setPhase x).store = s.store := rfl
@[simp] theorem State.setPhase_phase (x : Phase) : (s.setPhase x).phase = x := rfl
@[simp] theorem State.setPhase_report (x : Phase) : (s.setPhase x).report = s.report := rfl
@[simp] theorem State.setPhase_mem (x : Phase) : (s.setPhase x).mem = s.mem := rfl
@[simp] theorem State.setPhase_free (x : Phase) : (s.setPhase x).free = s.free := rfl
@[simp] theorem State.setPhase_pending (x : Phase) : (s.setPhase x).pending = s.pending := rfl

/-! `setReport` -/

@[simp] theorem State.setReport_pins (x : Report) : (s.setReport x).pins = s.pins := rfl
@[simp] theorem State.setReport_loader (x : Report) : (s.setReport x).loader = s.loader := rfl
@[simp] theorem State.setReport_router (x : Report) : (s.setReport x).router = s.router := rfl
@[simp] theorem State.setReport_windows (x : Report) : (s.setReport x).windows = s.windows := rfl
@[simp] theorem State.setReport_arb (x : Report) : (s.setReport x).arb = s.arb := rfl
@[simp] theorem State.setReport_intake (x : Report) : (s.setReport x).intake = s.intake := rfl
@[simp] theorem State.setReport_route (x : Report) : (s.setReport x).route = s.route := rfl
@[simp] theorem State.setReport_odo (x : Report) : (s.setReport x).odo = s.odo := rfl
@[simp] theorem State.setReport_seats (x : Report) : (s.setReport x).seats = s.seats := rfl
@[simp] theorem State.setReport_notices (x : Report) : (s.setReport x).notices = s.notices := rfl
@[simp] theorem State.setReport_store (x : Report) : (s.setReport x).store = s.store := rfl
@[simp] theorem State.setReport_phase (x : Report) : (s.setReport x).phase = s.phase := rfl
@[simp] theorem State.setReport_report (x : Report) : (s.setReport x).report = x := rfl
@[simp] theorem State.setReport_mem (x : Report) : (s.setReport x).mem = s.mem := rfl
@[simp] theorem State.setReport_free (x : Report) : (s.setReport x).free = s.free := rfl
@[simp] theorem State.setReport_pending (x : Report) : (s.setReport x).pending = s.pending := rfl

/-! `setMem` -/

@[simp] theorem State.setMem_pins (x : Memory) : (s.setMem x).pins = s.pins := rfl
@[simp] theorem State.setMem_loader (x : Memory) : (s.setMem x).loader = s.loader := rfl
@[simp] theorem State.setMem_router (x : Memory) : (s.setMem x).router = s.router := rfl
@[simp] theorem State.setMem_windows (x : Memory) : (s.setMem x).windows = s.windows := rfl
@[simp] theorem State.setMem_arb (x : Memory) : (s.setMem x).arb = s.arb := rfl
@[simp] theorem State.setMem_intake (x : Memory) : (s.setMem x).intake = s.intake := rfl
@[simp] theorem State.setMem_route (x : Memory) : (s.setMem x).route = s.route := rfl
@[simp] theorem State.setMem_odo (x : Memory) : (s.setMem x).odo = s.odo := rfl
@[simp] theorem State.setMem_seats (x : Memory) : (s.setMem x).seats = s.seats := rfl
@[simp] theorem State.setMem_notices (x : Memory) : (s.setMem x).notices = s.notices := rfl
@[simp] theorem State.setMem_store (x : Memory) : (s.setMem x).store = s.store := rfl
@[simp] theorem State.setMem_phase (x : Memory) : (s.setMem x).phase = s.phase := rfl
@[simp] theorem State.setMem_report (x : Memory) : (s.setMem x).report = s.report := rfl
@[simp] theorem State.setMem_mem (x : Memory) : (s.setMem x).mem = x := rfl
@[simp] theorem State.setMem_free (x : Memory) : (s.setMem x).free = s.free := rfl
@[simp] theorem State.setMem_pending (x : Memory) : (s.setMem x).pending = s.pending := rfl

/-! `setFree` -/

@[simp] theorem State.setFree_pins (x : Nat) : (s.setFree x).pins = s.pins := rfl
@[simp] theorem State.setFree_loader (x : Nat) : (s.setFree x).loader = s.loader := rfl
@[simp] theorem State.setFree_router (x : Nat) : (s.setFree x).router = s.router := rfl
@[simp] theorem State.setFree_windows (x : Nat) : (s.setFree x).windows = s.windows := rfl
@[simp] theorem State.setFree_arb (x : Nat) : (s.setFree x).arb = s.arb := rfl
@[simp] theorem State.setFree_intake (x : Nat) : (s.setFree x).intake = s.intake := rfl
@[simp] theorem State.setFree_route (x : Nat) : (s.setFree x).route = s.route := rfl
@[simp] theorem State.setFree_odo (x : Nat) : (s.setFree x).odo = s.odo := rfl
@[simp] theorem State.setFree_seats (x : Nat) : (s.setFree x).seats = s.seats := rfl
@[simp] theorem State.setFree_notices (x : Nat) : (s.setFree x).notices = s.notices := rfl
@[simp] theorem State.setFree_store (x : Nat) : (s.setFree x).store = s.store := rfl
@[simp] theorem State.setFree_phase (x : Nat) : (s.setFree x).phase = s.phase := rfl
@[simp] theorem State.setFree_report (x : Nat) : (s.setFree x).report = s.report := rfl
@[simp] theorem State.setFree_mem (x : Nat) : (s.setFree x).mem = s.mem := rfl
@[simp] theorem State.setFree_free (x : Nat) : (s.setFree x).free = x := rfl
@[simp] theorem State.setFree_pending (x : Nat) : (s.setFree x).pending = s.pending := rfl

/-! `setPending` -/

@[simp] theorem State.setPending_pins (x : List Instr) : (s.setPending x).pins = s.pins := rfl
@[simp] theorem State.setPending_loader (x : List Instr) : (s.setPending x).loader = s.loader := rfl
@[simp] theorem State.setPending_router (x : List Instr) : (s.setPending x).router = s.router := rfl
@[simp] theorem State.setPending_windows (x : List Instr) : (s.setPending x).windows = s.windows := rfl
@[simp] theorem State.setPending_arb (x : List Instr) : (s.setPending x).arb = s.arb := rfl
@[simp] theorem State.setPending_intake (x : List Instr) : (s.setPending x).intake = s.intake := rfl
@[simp] theorem State.setPending_route (x : List Instr) : (s.setPending x).route = s.route := rfl
@[simp] theorem State.setPending_odo (x : List Instr) : (s.setPending x).odo = s.odo := rfl
@[simp] theorem State.setPending_seats (x : List Instr) : (s.setPending x).seats = s.seats := rfl
@[simp] theorem State.setPending_notices (x : List Instr) : (s.setPending x).notices = s.notices := rfl
@[simp] theorem State.setPending_store (x : List Instr) : (s.setPending x).store = s.store := rfl
@[simp] theorem State.setPending_phase (x : List Instr) : (s.setPending x).phase = s.phase := rfl
@[simp] theorem State.setPending_report (x : List Instr) : (s.setPending x).report = s.report := rfl
@[simp] theorem State.setPending_mem (x : List Instr) : (s.setPending x).mem = s.mem := rfl
@[simp] theorem State.setPending_free (x : List Instr) : (s.setPending x).free = s.free := rfl
@[simp] theorem State.setPending_pending (x : List Instr) : (s.setPending x).pending = x := rfl

end Sys2Proof.Machine
end

