-- ==== Sys2Proof/Laws/Parts.lean ====
section
/-! SUPPORT. The parts of the state after a replacement, what the Route Table's changes of status keep, and what a composition
leaves alone. -/

namespace Sys2Proof.Machine

variable (s : State)

@[simp] theorem State.setPins_path (x : Pins) : (s.setPins x).path = { s.path with pins := x } := rfl
@[simp] theorem State.setLoader_path (x : Loader) : (s.setLoader x).path = { s.path with loader := x } := rfl
@[simp] theorem State.setRouter_path (x : Router) : (s.setRouter x).path = { s.path with router := x } := rfl
@[simp] theorem State.setWindows_path (x : Windows) : (s.setWindows x).path = s.path := rfl
@[simp] theorem State.setArb_path (x : Arbiter) : (s.setArb x).path = { s.path with arb := x } := rfl
@[simp] theorem State.setIntake_path (x : Intake) : (s.setIntake x).path = { s.path with intake := x } := rfl
@[simp] theorem State.setRoute_path (x : Route) : (s.setRoute x).path = s.path := rfl
@[simp] theorem State.setOdo_path (x : Odo) : (s.setOdo x).path = s.path := rfl
@[simp] theorem State.setSeats_path (x : Seats) : (s.setSeats x).path = s.path := rfl
@[simp] theorem State.setNotices_path (x : Notices) : (s.setNotices x).path = s.path := rfl
@[simp] theorem State.setStore_path (x : List Entry) : (s.setStore x).path = s.path := rfl
@[simp] theorem State.setPhase_path (x : Phase) : (s.setPhase x).path = s.path := rfl
@[simp] theorem State.setReport_path (x : Report) : (s.setReport x).path = s.path := rfl
@[simp] theorem State.setMem_path (x : Memory) : (s.setMem x).path = { s.path with mem := x } := rfl
@[simp] theorem State.setFree_path (x : Nat) : (s.setFree x).path = { s.path with free := x } := rfl
@[simp] theorem State.setPending_path (x : List Instr) : (s.setPending x).path = { s.path with pending := x } := rfl
@[simp] theorem State.setPins_journey (x : Pins) : (s.setPins x).journey = s.journey := rfl
@[simp] theorem State.setLoader_journey (x : Loader) : (s.setLoader x).journey = s.journey := rfl
@[simp] theorem State.setRouter_journey (x : Router) : (s.setRouter x).journey = s.journey := rfl
@[simp] theorem State.setWindows_journey (x : Windows) : (s.setWindows x).journey = s.journey := rfl
@[simp] theorem State.setArb_journey (x : Arbiter) : (s.setArb x).journey = s.journey := rfl
@[simp] theorem State.setIntake_journey (x : Intake) : (s.setIntake x).journey = s.journey := rfl
@[simp] theorem State.setRoute_journey (x : Route) : (s.setRoute x).journey = { s.journey with route := x.facts } := rfl
@[simp] theorem State.setOdo_journey (x : Odo) : (s.setOdo x).journey = { s.journey with odo := x } := rfl
@[simp] theorem State.setSeats_journey (x : Seats) : (s.setSeats x).journey = { s.journey with pool := x.pool } := rfl
@[simp] theorem State.setNotices_journey (x : Notices) : (s.setNotices x).journey = { s.journey with notices := x.facts } := rfl
@[simp] theorem State.setStore_journey (x : List Entry) : (s.setStore x).journey = s.journey := rfl
@[simp] theorem State.setPhase_journey (x : Phase) : (s.setPhase x).journey = { s.journey with phase := x.facts } := rfl
@[simp] theorem State.setReport_journey (x : Report) : (s.setReport x).journey = s.journey := rfl
@[simp] theorem State.setMem_journey (x : Memory) : (s.setMem x).journey = s.journey := rfl
@[simp] theorem State.setFree_journey (x : Nat) : (s.setFree x).journey = s.journey := rfl
@[simp] theorem State.setPending_journey (x : List Instr) : (s.setPending x).journey = s.journey := rfl
@[simp] theorem State.setPins_reported (x : Pins) : (s.setPins x).reported = s.reported := rfl
@[simp] theorem State.setLoader_reported (x : Loader) : (s.setLoader x).reported = s.reported := rfl
@[simp] theorem State.setRouter_reported (x : Router) : (s.setRouter x).reported = s.reported := rfl
@[simp] theorem State.setWindows_reported (x : Windows) : (s.setWindows x).reported = s.reported := rfl
@[simp] theorem State.setArb_reported (x : Arbiter) : (s.setArb x).reported = s.reported := rfl
@[simp] theorem State.setIntake_reported (x : Intake) : (s.setIntake x).reported = s.reported := rfl
@[simp] theorem State.setRoute_reported (x : Route) : (s.setRoute x).reported = s.reported := rfl
@[simp] theorem State.setOdo_reported (x : Odo) : (s.setOdo x).reported = s.reported := rfl
@[simp] theorem State.setSeats_reported (x : Seats) : (s.setSeats x).reported = s.reported := rfl
@[simp] theorem State.setNotices_reported (x : Notices) : (s.setNotices x).reported = s.reported := rfl
@[simp] theorem State.setStore_reported (x : List Entry) : (s.setStore x).reported = s.reported := rfl
@[simp] theorem State.setPhase_reported (x : Phase) : (s.setPhase x).reported = s.reported := rfl
@[simp] theorem State.setReport_reported (x : Report) : (s.setReport x).reported = x.facts := rfl
@[simp] theorem State.setMem_reported (x : Memory) : (s.setMem x).reported = s.reported := rfl
@[simp] theorem State.setFree_reported (x : Nat) : (s.setFree x).reported = s.reported := rfl
@[simp] theorem State.setPending_reported (x : List Instr) : (s.setPending x).reported = s.reported := rfl

/-! What the facts of a block hold. -/

@[simp] theorem Odo.figures_doorLevel (x : Odo) : x.figures.doorLevel = x.doorLevel := rfl
@[simp] theorem Odo.figures_doorCount (x : Odo) : x.figures.doorCount = x.doorCount := rfl
@[simp] theorem Odo.figures_wheelLevel (x : Odo) : x.figures.wheelLevel = x.wheelLevel := rfl
@[simp] theorem Odo.figures_position (x : Odo) : x.figures.position = x.position := rfl
@[simp] theorem Odo.figures_remUm (x : Odo) : x.figures.remUm = x.remUm := rfl
@[simp] theorem Odo.figures_winDist (x : Odo) : x.figures.winDist = x.winDist := rfl
@[simp] theorem Odo.figures_ring (x : Odo) : x.figures.ring = x.ring := rfl
@[simp] theorem Odo.figures_speed (x : Odo) : x.figures.speed = x.speed := rfl
@[simp] theorem Odo.figures_repSpeed (x : Odo) : x.figures.repSpeed = x.repSpeed := rfl
@[simp] theorem Odo.figures_stableRun (x : Odo) : x.figures.stableRun = x.stableRun := rfl
@[simp] theorem Odo.figures_settled (x : Odo) : x.figures.settled = x.settled := rfl
@[simp] theorem Odo.figures_winTimer (x : Odo) : x.figures.winTimer = x.winTimer := rfl
@[simp] theorem Route.facts_table (x : Route) : x.facts.table = x.table := rfl
@[simp] theorem Route.facts_progress (x : Route) : x.facts.progress = x.progress := rfl
@[simp] theorem Route.facts_lastMissed (x : Route) : x.facts.lastMissed = x.lastMissed := rfl
@[simp] theorem Route.facts_departFlag (x : Route) : x.facts.departFlag = x.departFlag := rfl
@[simp] theorem Route.facts_portion (x : Route) : x.facts.portion = x.portion := rfl
@[simp] theorem Route.facts_reversed (x : Route) : x.facts.reversed = x.reversed := rfl
@[simp] theorem Route.facts_delay (x : Route) : x.facts.delay = x.delay := rfl
@[simp] theorem Route.facts_clock (x : Route) : x.facts.clock = x.clock := rfl
@[simp] theorem Route.facts_clockTicks (x : Route) : x.facts.clockTicks = x.clockTicks := rfl
@[simp] theorem Notices.facts_queue (x : Notices) : x.facts.queue = x.queue := rfl
@[simp] theorem Notices.facts_mark (x : Notices) : x.facts.mark = x.mark := rfl
@[simp] theorem Notices.facts_dwell (x : Notices) : x.facts.dwell = x.dwell := rfl
@[simp] theorem Notices.facts_seq (x : Notices) : x.facts.seq = x.seq := rfl
@[simp] theorem Notices.facts_chimeTimer (x : Notices) : x.facts.chimeTimer = x.chimeTimer := rfl
@[simp] theorem Phase.facts_tick (x : Phase) : x.facts.tick = x.tick := rfl
@[simp] theorem Phase.facts_plane (x : Phase) : x.facts.plane = x.plane := rfl
@[simp] theorem Phase.facts_blink (x : Phase) : x.facts.blink = x.blink := rfl
@[simp] theorem Phase.facts_blankAll (x : Phase) : x.facts.blankAll = x.blankAll := rfl
@[simp] theorem Phase.facts_seq (x : Phase) : x.facts.seq = x.seq := rfl
@[simp] theorem Report.facts_factors (x : Report) : x.facts.factors = x.factors := rfl
@[simp] theorem Report.facts_mask (x : Report) : x.facts.mask = x.mask := rfl
@[simp] theorem Report.facts_counters (x : Report) : x.facts.counters = x.counters := rfl
@[simp] theorem Report.facts_lastBad (x : Report) : x.facts.lastBad = x.lastBad := rfl
@[simp] theorem Report.facts_arrival (x : Report) : x.facts.arrival = x.arrival := rfl
@[simp] theorem Report.facts_posM (x : Report) : x.facts.posM = x.posM := rfl
@[simp] theorem Report.facts_repSpeed (x : Report) : x.facts.repSpeed = x.repSpeed := rfl
@[simp] theorem Report.facts_settled (x : Report) : x.facts.settled = x.settled := rfl
@[simp] theorem Report.facts_latch (x : Report) : x.facts.latch = x.latch := rfl
@[simp] theorem Report.facts_cause (x : Report) : x.facts.cause = x.cause := rfl
@[simp] theorem Route.facts_plan (x : Route) : x.facts.plan = x.plan := rfl
@[simp] theorem Route.facts_settings (x : Route) : x.facts.settings = x.settings := rfl
@[simp] theorem Route.facts_entry (x : Route) (i : Nat) : x.facts.entry i = x.entry i := rfl
@[simp] theorem Route.facts_entries (x : Route) : x.facts.entries = x.entries := rfl
@[simp] theorem Route.facts_current (x : Route) : x.facts.current = x.current := rfl
@[simp] theorem Route.facts_target (x : Route) : x.facts.target = x.target := rfl
@[simp] theorem Route.facts_currentEntry (x : Route) : x.facts.currentEntry = x.currentEntry := rfl
@[simp] theorem Route.facts_targetEntry (x : Route) : x.facts.targetEntry = x.targetEntry := rfl
@[simp] theorem Route.facts_pastEnd (x : Route) : x.facts.pastEnd = x.pastEnd := rfl
@[simp] theorem Report.facts_has (x : Report) (f : Factor) : x.facts.has f = x.has f := rfl
@[simp] theorem State.journey_odo : s.journey.odo = s.odo := rfl
@[simp] theorem State.journey_route : s.journey.route = s.route.facts := rfl
@[simp] theorem State.journey_pool : s.journey.pool = s.seats.pool := rfl
@[simp] theorem State.journey_notices : s.journey.notices = s.notices.facts := rfl
@[simp] theorem State.journey_phase : s.journey.phase = s.phase.facts := rfl
@[simp] theorem State.path_pins : s.path.pins = s.pins := rfl
@[simp] theorem State.path_loader : s.path.loader = s.loader := rfl
@[simp] theorem State.path_router : s.path.router = s.router := rfl
@[simp] theorem State.path_arb : s.path.arb = s.arb := rfl
@[simp] theorem State.path_intake : s.path.intake = s.intake := rfl
@[simp] theorem State.path_mem : s.path.mem = s.mem := rfl
@[simp] theorem State.path_pending : s.path.pending = s.pending := rfl
@[simp] theorem State.path_free : s.path.free = s.free := rfl

@[simp] theorem Route.plan_mapStatus (r : Route) (f : Nat → StopEntry → Status) : (r.mapStatus f).plan = r.plan := by
  have h : ∀ (l : List (Option StopEntry)) i, (setStatus f i l).map (fun e => e.map StopEntry.plan) = l.map fun e => e.map StopEntry.plan := by
    intro l; induction l with
    | nil => intro i; rfl
    | cons a l ih => intro i; cases a <;> simp [setStatus, ih, StopEntry.plan]
  exact h _ _
@[simp] theorem Route.settings_mapStatus (r : Route) (f : Nat → StopEntry → Status) : (r.mapStatus f).settings = r.settings := rfl
@[simp] theorem Route.plan_select (r : Route) : r.select.plan = r.plan := Route.plan_mapStatus ..
@[simp] theorem Route.settings_select (r : Route) : r.select.settings = r.settings := rfl
@[simp] theorem Route.plan_mark (r : Route) (i : Nat) (st : Status) : (r.mark i st).plan = r.plan := Route.plan_mapStatus ..
@[simp] theorem Route.settings_mark (r : Route) (i : Nat) (st : Status) : (r.mark i st).settings = r.settings := rfl
@[simp] theorem Route.plan_reach (r : Route) (i : Nat) (b : Bool) : (r.reach i b).plan = r.plan := (Route.plan_select _).trans (Route.plan_mapStatus ..)
@[simp] theorem Route.settings_reach (r : Route) (i : Nat) (b : Bool) : (r.reach i b).settings = r.settings := rfl
@[simp] theorem Route.progress_mapStatus (r : Route) (f : Nat → StopEntry → Status) : (r.mapStatus f).progress = r.progress := rfl
@[simp] theorem Route.progress_select (r : Route) : r.select.progress = r.progress := rfl
@[simp] theorem Route.progress_mark (r : Route) (i : Nat) (st : Status) : (r.mark i st).progress = r.progress := rfl
@[simp] theorem Route.progress_reach (r : Route) (i : Nat) (b : Bool) : (r.reach i b).progress = .standing := rfl

/-- What a composition leaves alone: the path, the windows, the journey and the record of reports. -/
def Settled (s t : State) : Prop :=
  t.path = s.path ∧ t.windows = s.windows ∧ t.journey = s.journey ∧ t.reported = s.reported

theorem Settled.refl : Settled s s := ⟨rfl, rfl, rfl, rfl⟩
theorem Settled.trans {a b c : State} (h : Settled a b) (k : Settled b c) : Settled a c :=
  ⟨k.1.trans h.1, k.2.1.trans h.2.1, k.2.2.1.trans h.2.2.1, k.2.2.2.trans h.2.2.2⟩

theorem offerPhase_settled : Settled s s.offerPhase := by
  unfold State.offerPhase; (repeat' split) <;> exact ⟨rfl, rfl, rfl, rfl⟩
theorem offerEvent_settled : Settled s s.offerEvent := by
  unfold State.offerEvent; (repeat' split) <;> exact ⟨rfl, rfl, rfl, rfl⟩
theorem offerCounter_settled : Settled s s.offerCounter := by
  unfold State.offerCounter; (repeat' split) <;> exact ⟨rfl, rfl, rfl, rfl⟩
theorem offerPosition_settled : Settled s s.offerPosition := by
  unfold State.offerPosition; (repeat' split) <;> exact ⟨rfl, rfl, rfl, rfl⟩
theorem offerArrival_settled : Settled s s.offerArrival := by
  unfold State.offerArrival; (repeat' split) <;> exact ⟨rfl, rfl, rfl, rfl⟩
theorem offerBanner_settled : Settled s s.offerBanner := by
  unfold State.offerBanner; (repeat' split) <;> exact ⟨rfl, rfl, rfl, rfl⟩
theorem offerStrips_settled (is : List Nat) : Settled s (s.offerStrips is) := by
  induction is generalizing s with
  | nil => exact ⟨rfl, rfl, rfl, rfl⟩
  | cons i r ih =>
    unfold State.offerStrips; split
    · exact Settled.trans ⟨rfl, rfl, rfl, rfl⟩ (ih (s.takeStrip i))
    · exact ⟨rfl, rfl, rfl, rfl⟩
theorem offerSeats_settled (is : List Nat) : Settled s (s.offerSeats is) := by
  induction is generalizing s with
  | nil => exact ⟨rfl, rfl, rfl, rfl⟩
  | cons i r ih =>
    unfold State.offerSeats; dsimp only; split
    · exact ih s
    · split
      · exact Settled.trans ⟨rfl, rfl, rfl, rfl⟩ (ih (s.takeSeat i _))
      · exact ⟨rfl, rfl, rfl, rfl⟩
theorem settle_settled : Settled s s.settle := by
  unfold State.settle; split
  · exact ((((((((offerPhase_settled _).trans (offerEvent_settled _)).trans (offerCounter_settled _)).trans
      (offerPosition_settled _)).trans (offerArrival_settled _)).trans (offerBanner_settled _)).trans
      (offerStrips_settled _ _)).trans (offerSeats_settled _ _))
  · exact .refl s
@[simp] theorem State.settle_path : s.settle.path = s.path := (settle_settled s).1
@[simp] theorem State.settle_windows : s.settle.windows = s.windows := (settle_settled s).2.1
@[simp] theorem State.settle_journey : s.settle.journey = s.journey := (settle_settled s).2.2.1
@[simp] theorem State.settle_reported : s.settle.reported = s.reported := (settle_settled s).2.2.2
@[simp] theorem State.settle_odo : s.settle.odo = s.odo := congrArg JourneyPart.odo (State.settle_journey s)
@[simp] theorem State.settle_route_facts : s.settle.route.facts = s.route.facts :=
  congrArg JourneyPart.route (State.settle_journey s)
@[simp] theorem State.settle_seats_pool : s.settle.seats.pool = s.seats.pool :=
  congrArg JourneyPart.pool (State.settle_journey s)
@[simp] theorem State.settle_notices_facts : s.settle.notices.facts = s.notices.facts :=
  congrArg JourneyPart.notices (State.settle_journey s)
@[simp] theorem State.settle_phase_facts : s.settle.phase.facts = s.phase.facts :=
  congrArg JourneyPart.phase (State.settle_journey s)
@[simp] theorem State.settle_progress : s.settle.route.progress = s.route.progress := by
  rw [← Route.facts_progress, State.settle_route_facts, Route.facts_progress]
@[simp] theorem State.settle_table : s.settle.route.table = s.route.table := by
  rw [← Route.facts_table, State.settle_route_facts, Route.facts_table]
@[simp] theorem State.settle_settings : s.settle.route.settings = s.route.settings := by
  rw [← Route.facts_settings, State.settle_route_facts, Route.facts_settings]
@[simp] theorem State.settle_plan : s.settle.route.plan = s.route.plan := by
  rw [← Route.facts_plan, State.settle_route_facts, Route.facts_plan]
@[simp] theorem State.settle_queue : s.settle.notices.queue = s.notices.queue := by
  rw [← Notices.facts_queue, State.settle_notices_facts, Notices.facts_queue]
@[simp] theorem State.reported_has (f : Factor) : s.reported.has f = s.report.has f := rfl
@[simp] theorem State.settle_has (f : Factor) : s.settle.report.has f = s.report.has f := by
  rw [← State.reported_has, State.settle_reported, State.reported_has]

end Sys2Proof.Machine
end

