-- ==== Sys2Proof/Laws/Frames.lean ====
section
/-! SUPPORT. What each journey operation leaves alone, block by block. -/

namespace Sys2Proof.Machine

variable (s : State)

/-! `onReport` -/

@[simp] theorem State.onReport_path (f : Report → Report) : (s.onReport f).path = s.path := by
  unfold State.onReport; simp
@[simp] theorem State.onReport_store (f : Report → Report) : (s.onReport f).store = s.store := by
  unfold State.onReport; simp
@[simp] theorem State.onReport_windows (f : Report → Report) : (s.onReport f).windows = s.windows := by
  unfold State.onReport; simp
@[simp] theorem State.onReport_route (f : Report → Report) : (s.onReport f).route = s.route := by
  unfold State.onReport; simp
@[simp] theorem State.onReport_odo (f : Report → Report) : (s.onReport f).odo = s.odo := by
  unfold State.onReport; simp
@[simp] theorem State.onReport_seats (f : Report → Report) : (s.onReport f).seats = s.seats := by
  unfold State.onReport; simp
@[simp] theorem State.onReport_notices (f : Report → Report) : (s.onReport f).notices = s.notices := by
  unfold State.onReport; simp
@[simp] theorem State.onReport_phase (f : Report → Report) : (s.onReport f).phase = s.phase := by
  unfold State.onReport; simp
@[simp] theorem State.onReport_journey (f : Report → Report) : (s.onReport f).journey = s.journey := by
  unfold State.onReport; simp

/-! `handCause` -/

@[simp] theorem State.handCause_path (f : Factor) (c : Counter) : (s.handCause f c).path = s.path := by
  unfold State.handCause; simp
@[simp] theorem State.handCause_store (f : Factor) (c : Counter) : (s.handCause f c).store = s.store := by
  unfold State.handCause; simp
@[simp] theorem State.handCause_windows (f : Factor) (c : Counter) : (s.handCause f c).windows = s.windows := by
  unfold State.handCause; simp
@[simp] theorem State.handCause_route (f : Factor) (c : Counter) : (s.handCause f c).route = s.route := by
  unfold State.handCause; simp
@[simp] theorem State.handCause_odo (f : Factor) (c : Counter) : (s.handCause f c).odo = s.odo := by
  unfold State.handCause; simp
@[simp] theorem State.handCause_seats (f : Factor) (c : Counter) : (s.handCause f c).seats = s.seats := by
  unfold State.handCause; simp
@[simp] theorem State.handCause_notices (f : Factor) (c : Counter) : (s.handCause f c).notices = s.notices := by
  unfold State.handCause; simp
@[simp] theorem State.handCause_phase (f : Factor) (c : Counter) : (s.handCause f c).phase = s.phase := by
  unfold State.handCause; simp
@[simp] theorem State.handCause_journey (f : Factor) (c : Counter) : (s.handCause f c).journey = s.journey := by
  unfold State.handCause; simp

/-! `badRecord` -/

@[simp] theorem State.badRecord_path (why : Reason) (k : RecKind) (slot : Nat) : (s.badRecord why k slot).path = s.path := by
  unfold State.badRecord; simp
@[simp] theorem State.badRecord_store (why : Reason) (k : RecKind) (slot : Nat) : (s.badRecord why k slot).store = s.store := by
  unfold State.badRecord; simp
@[simp] theorem State.badRecord_windows (why : Reason) (k : RecKind) (slot : Nat) : (s.badRecord why k slot).windows = s.windows := by
  unfold State.badRecord; simp
@[simp] theorem State.badRecord_route (why : Reason) (k : RecKind) (slot : Nat) : (s.badRecord why k slot).route = s.route := by
  unfold State.badRecord; simp
@[simp] theorem State.badRecord_odo (why : Reason) (k : RecKind) (slot : Nat) : (s.badRecord why k slot).odo = s.odo := by
  unfold State.badRecord; simp
@[simp] theorem State.badRecord_seats (why : Reason) (k : RecKind) (slot : Nat) : (s.badRecord why k slot).seats = s.seats := by
  unfold State.badRecord; simp
@[simp] theorem State.badRecord_notices (why : Reason) (k : RecKind) (slot : Nat) : (s.badRecord why k slot).notices = s.notices := by
  unfold State.badRecord; simp
@[simp] theorem State.badRecord_phase (why : Reason) (k : RecKind) (slot : Nat) : (s.badRecord why k slot).phase = s.phase := by
  unfold State.badRecord; simp
@[simp] theorem State.badRecord_journey (why : Reason) (k : RecKind) (slot : Nat) : (s.badRecord why k slot).journey = s.journey := by
  unfold State.badRecord; simp

/-! `refuseMessage` -/

@[simp] theorem State.refuseMessage_path (why : Reason) (slot : Nat) : (s.refuseMessage why slot).path = s.path := by
  unfold State.refuseMessage; simp
@[simp] theorem State.refuseMessage_store (why : Reason) (slot : Nat) : (s.refuseMessage why slot).store = s.store := by
  unfold State.refuseMessage; simp
@[simp] theorem State.refuseMessage_windows (why : Reason) (slot : Nat) : (s.refuseMessage why slot).windows = s.windows := by
  unfold State.refuseMessage; simp
@[simp] theorem State.refuseMessage_route (why : Reason) (slot : Nat) : (s.refuseMessage why slot).route = s.route := by
  unfold State.refuseMessage; simp
@[simp] theorem State.refuseMessage_odo (why : Reason) (slot : Nat) : (s.refuseMessage why slot).odo = s.odo := by
  unfold State.refuseMessage; simp
@[simp] theorem State.refuseMessage_seats (why : Reason) (slot : Nat) : (s.refuseMessage why slot).seats = s.seats := by
  unfold State.refuseMessage; simp
@[simp] theorem State.refuseMessage_notices (why : Reason) (slot : Nat) : (s.refuseMessage why slot).notices = s.notices := by
  unfold State.refuseMessage; simp
@[simp] theorem State.refuseMessage_phase (why : Reason) (slot : Nat) : (s.refuseMessage why slot).phase = s.phase := by
  unfold State.refuseMessage; simp
@[simp] theorem State.refuseMessage_journey (why : Reason) (slot : Nat) : (s.refuseMessage why slot).journey = s.journey := by
  unfold State.refuseMessage; simp

/-! `joinStrip` -/

@[simp] theorem State.joinStrip_path (slots : List Nat) : (s.joinStrip slots).path = s.path := by
  unfold State.joinStrip; simp
@[simp] theorem State.joinStrip_store (slots : List Nat) : (s.joinStrip slots).store = s.store := by
  unfold State.joinStrip; simp
@[simp] theorem State.joinStrip_windows (slots : List Nat) : (s.joinStrip slots).windows = s.windows := by
  unfold State.joinStrip; simp
@[simp] theorem State.joinStrip_odo (slots : List Nat) : (s.joinStrip slots).odo = s.odo := by
  unfold State.joinStrip; simp
@[simp] theorem State.joinStrip_seats (slots : List Nat) : (s.joinStrip slots).seats = s.seats := by
  unfold State.joinStrip; simp
@[simp] theorem State.joinStrip_notices (slots : List Nat) : (s.joinStrip slots).notices = s.notices := by
  unfold State.joinStrip; simp
@[simp] theorem State.joinStrip_phase (slots : List Nat) : (s.joinStrip slots).phase = s.phase := by
  unfold State.joinStrip; simp
@[simp] theorem State.joinStrip_report (slots : List Nat) : (s.joinStrip slots).report = s.report := by
  unfold State.joinStrip; simp
@[simp] theorem State.joinStrip_journey (slots : List Nat) : (s.joinStrip slots).journey = s.journey := by
  unfold State.joinStrip; simp [State.journey, Route.facts]
@[simp] theorem State.joinStrip_reported (slots : List Nat) : (s.joinStrip slots).reported = s.reported := by
  unfold State.joinStrip; simp
@[simp] theorem State.joinStrip_route_facts (slots : List Nat) : (s.joinStrip slots).route.facts = s.route.facts := by
  unfold State.joinStrip; simp [Route.facts]
@[simp] theorem State.joinStrip_route_plan (slots : List Nat) : (s.joinStrip slots).route.plan = s.route.plan := by
  unfold State.joinStrip; simp [Route.plan]
@[simp] theorem State.joinStrip_route_settings (slots : List Nat) : (s.joinStrip slots).route.settings = s.route.settings := by
  unfold State.joinStrip; simp [Route.settings]
@[simp] theorem State.joinStrip_route_progress (slots : List Nat) : (s.joinStrip slots).route.progress = s.route.progress := by
  unfold State.joinStrip; simp

/-! `joinChanged` -/

@[simp] theorem State.joinChanged_path (old : Route) : (s.joinChanged old).path = s.path := by
  unfold State.joinChanged; simp
@[simp] theorem State.joinChanged_store (old : Route) : (s.joinChanged old).store = s.store := by
  unfold State.joinChanged; simp
@[simp] theorem State.joinChanged_windows (old : Route) : (s.joinChanged old).windows = s.windows := by
  unfold State.joinChanged; simp
@[simp] theorem State.joinChanged_odo (old : Route) : (s.joinChanged old).odo = s.odo := by
  unfold State.joinChanged; simp
@[simp] theorem State.joinChanged_seats (old : Route) : (s.joinChanged old).seats = s.seats := by
  unfold State.joinChanged; simp
@[simp] theorem State.joinChanged_notices (old : Route) : (s.joinChanged old).notices = s.notices := by
  unfold State.joinChanged; simp
@[simp] theorem State.joinChanged_phase (old : Route) : (s.joinChanged old).phase = s.phase := by
  unfold State.joinChanged; simp
@[simp] theorem State.joinChanged_report (old : Route) : (s.joinChanged old).report = s.report := by
  unfold State.joinChanged; simp
@[simp] theorem State.joinChanged_journey (old : Route) : (s.joinChanged old).journey = s.journey := by
  unfold State.joinChanged; simp
@[simp] theorem State.joinChanged_reported (old : Route) : (s.joinChanged old).reported = s.reported := by
  unfold State.joinChanged; simp
@[simp] theorem State.joinChanged_route_facts (old : Route) : (s.joinChanged old).route.facts = s.route.facts := by
  unfold State.joinChanged; simp
@[simp] theorem State.joinChanged_route_plan (old : Route) : (s.joinChanged old).route.plan = s.route.plan := by
  unfold State.joinChanged; simp
@[simp] theorem State.joinChanged_route_settings (old : Route) : (s.joinChanged old).route.settings = s.route.settings := by
  unfold State.joinChanged; simp
@[simp] theorem State.joinChanged_route_progress (old : Route) : (s.joinChanged old).route.progress = s.route.progress := by
  unfold State.joinChanged; simp

/-! `joinTargetLine` -/

@[simp] theorem State.joinTargetLine_path : (s.joinTargetLine).path = s.path := by
  unfold State.joinTargetLine; (repeat' split) <;> simp
@[simp] theorem State.joinTargetLine_store : (s.joinTargetLine).store = s.store := by
  unfold State.joinTargetLine; (repeat' split) <;> simp
@[simp] theorem State.joinTargetLine_windows : (s.joinTargetLine).windows = s.windows := by
  unfold State.joinTargetLine; (repeat' split) <;> simp
@[simp] theorem State.joinTargetLine_odo : (s.joinTargetLine).odo = s.odo := by
  unfold State.joinTargetLine; (repeat' split) <;> simp
@[simp] theorem State.joinTargetLine_seats : (s.joinTargetLine).seats = s.seats := by
  unfold State.joinTargetLine; (repeat' split) <;> simp
@[simp] theorem State.joinTargetLine_notices : (s.joinTargetLine).notices = s.notices := by
  unfold State.joinTargetLine; (repeat' split) <;> simp
@[simp] theorem State.joinTargetLine_phase : (s.joinTargetLine).phase = s.phase := by
  unfold State.joinTargetLine; (repeat' split) <;> simp
@[simp] theorem State.joinTargetLine_report : (s.joinTargetLine).report = s.report := by
  unfold State.joinTargetLine; (repeat' split) <;> simp
@[simp] theorem State.joinTargetLine_journey : (s.joinTargetLine).journey = s.journey := by
  unfold State.joinTargetLine; (repeat' split) <;> simp
@[simp] theorem State.joinTargetLine_reported : (s.joinTargetLine).reported = s.reported := by
  unfold State.joinTargetLine; (repeat' split) <;> simp
@[simp] theorem State.joinTargetLine_route_facts : (s.joinTargetLine).route.facts = s.route.facts := by
  unfold State.joinTargetLine; (repeat' split) <;> simp
@[simp] theorem State.joinTargetLine_route_plan : (s.joinTargetLine).route.plan = s.route.plan := by
  unfold State.joinTargetLine; (repeat' split) <;> simp
@[simp] theorem State.joinTargetLine_route_settings : (s.joinTargetLine).route.settings = s.route.settings := by
  unfold State.joinTargetLine; (repeat' split) <;> simp
@[simp] theorem State.joinTargetLine_route_progress : (s.joinTargetLine).route.progress = s.route.progress := by
  unfold State.joinTargetLine; (repeat' split) <;> simp

/-! `joinTimes` -/

@[simp] theorem State.joinTimes_path : (s.joinTimes).path = s.path := by
  unfold State.joinTimes; simp
@[simp] theorem State.joinTimes_store : (s.joinTimes).store = s.store := by
  unfold State.joinTimes; simp
@[simp] theorem State.joinTimes_windows : (s.joinTimes).windows = s.windows := by
  unfold State.joinTimes; simp
@[simp] theorem State.joinTimes_odo : (s.joinTimes).odo = s.odo := by
  unfold State.joinTimes; simp
@[simp] theorem State.joinTimes_seats : (s.joinTimes).seats = s.seats := by
  unfold State.joinTimes; simp
@[simp] theorem State.joinTimes_notices : (s.joinTimes).notices = s.notices := by
  unfold State.joinTimes; simp
@[simp] theorem State.joinTimes_phase : (s.joinTimes).phase = s.phase := by
  unfold State.joinTimes; simp
@[simp] theorem State.joinTimes_report : (s.joinTimes).report = s.report := by
  unfold State.joinTimes; simp
@[simp] theorem State.joinTimes_journey : (s.joinTimes).journey = s.journey := by
  unfold State.joinTimes; simp
@[simp] theorem State.joinTimes_reported : (s.joinTimes).reported = s.reported := by
  unfold State.joinTimes; simp
@[simp] theorem State.joinTimes_route_facts : (s.joinTimes).route.facts = s.route.facts := by
  unfold State.joinTimes; simp
@[simp] theorem State.joinTimes_route_plan : (s.joinTimes).route.plan = s.route.plan := by
  unfold State.joinTimes; simp
@[simp] theorem State.joinTimes_route_settings : (s.joinTimes).route.settings = s.route.settings := by
  unfold State.joinTimes; simp
@[simp] theorem State.joinTimes_route_progress : (s.joinTimes).route.progress = s.route.progress := by
  unfold State.joinTimes; simp

/-! `fullResolution` -/

@[simp] theorem State.fullResolution_path : (s.fullResolution).path = s.path := by
  unfold State.fullResolution; simp
@[simp] theorem State.fullResolution_store : (s.fullResolution).store = s.store := by
  unfold State.fullResolution; simp
@[simp] theorem State.fullResolution_windows : (s.fullResolution).windows = s.windows := by
  unfold State.fullResolution; simp
@[simp] theorem State.fullResolution_route : (s.fullResolution).route = s.route := by
  unfold State.fullResolution; simp
@[simp] theorem State.fullResolution_odo : (s.fullResolution).odo = s.odo := by
  unfold State.fullResolution; simp
@[simp] theorem State.fullResolution_notices : (s.fullResolution).notices = s.notices := by
  unfold State.fullResolution; simp
@[simp] theorem State.fullResolution_phase : (s.fullResolution).phase = s.phase := by
  unfold State.fullResolution; simp
@[simp] theorem State.fullResolution_report : (s.fullResolution).report = s.report := by
  unfold State.fullResolution; simp
@[simp] theorem State.fullResolution_journey : (s.fullResolution).journey = s.journey := by
  unfold State.fullResolution; simp [State.journey]
@[simp] theorem State.fullResolution_reported : (s.fullResolution).reported = s.reported := by
  unfold State.fullResolution; simp
@[simp] theorem State.fullResolution_seats_pool : (s.fullResolution).seats.pool = s.seats.pool := by
  unfold State.fullResolution; simp

/-! `joinSeat` -/

@[simp] theorem State.joinSeat_path (seat : Nat) : (s.joinSeat seat).path = s.path := by
  unfold State.joinSeat; (repeat' split) <;> simp
@[simp] theorem State.joinSeat_store (seat : Nat) : (s.joinSeat seat).store = s.store := by
  unfold State.joinSeat; (repeat' split) <;> simp
@[simp] theorem State.joinSeat_windows (seat : Nat) : (s.joinSeat seat).windows = s.windows := by
  unfold State.joinSeat; (repeat' split) <;> simp
@[simp] theorem State.joinSeat_route (seat : Nat) : (s.joinSeat seat).route = s.route := by
  unfold State.joinSeat; (repeat' split) <;> simp
@[simp] theorem State.joinSeat_odo (seat : Nat) : (s.joinSeat seat).odo = s.odo := by
  unfold State.joinSeat; (repeat' split) <;> simp
@[simp] theorem State.joinSeat_notices (seat : Nat) : (s.joinSeat seat).notices = s.notices := by
  unfold State.joinSeat; (repeat' split) <;> simp
@[simp] theorem State.joinSeat_phase (seat : Nat) : (s.joinSeat seat).phase = s.phase := by
  unfold State.joinSeat; (repeat' split) <;> simp
@[simp] theorem State.joinSeat_report (seat : Nat) : (s.joinSeat seat).report = s.report := by
  unfold State.joinSeat; (repeat' split) <;> simp
@[simp] theorem State.joinSeat_journey (seat : Nat) : (s.joinSeat seat).journey = s.journey := by
  unfold State.joinSeat; (repeat' split) <;> simp [State.journey]
@[simp] theorem State.joinSeat_reported (seat : Nat) : (s.joinSeat seat).reported = s.reported := by
  unfold State.joinSeat; (repeat' split) <;> simp
@[simp] theorem State.joinSeat_seats_pool (seat : Nat) : (s.joinSeat seat).seats.pool = s.seats.pool := by
  unfold State.joinSeat; (repeat' split) <;> simp

/-! `expireBelow` -/

@[simp] theorem State.expireBelow_path (b : Nat) : (s.expireBelow b).path = s.path := by
  unfold State.expireBelow; simp
@[simp] theorem State.expireBelow_store (b : Nat) : (s.expireBelow b).store = s.store := by
  unfold State.expireBelow; simp
@[simp] theorem State.expireBelow_windows (b : Nat) : (s.expireBelow b).windows = s.windows := by
  unfold State.expireBelow; simp
@[simp] theorem State.expireBelow_route (b : Nat) : (s.expireBelow b).route = s.route := by
  unfold State.expireBelow; simp
@[simp] theorem State.expireBelow_odo (b : Nat) : (s.expireBelow b).odo = s.odo := by
  unfold State.expireBelow; simp
@[simp] theorem State.expireBelow_notices (b : Nat) : (s.expireBelow b).notices = s.notices := by
  unfold State.expireBelow; simp
@[simp] theorem State.expireBelow_phase (b : Nat) : (s.expireBelow b).phase = s.phase := by
  unfold State.expireBelow; simp
@[simp] theorem State.expireBelow_report (b : Nat) : (s.expireBelow b).report = s.report := by
  unfold State.expireBelow; simp
@[simp] theorem State.expireBelow_reported (b : Nat) : (s.expireBelow b).reported = s.reported := by
  unfold State.expireBelow; simp

/-! `rebindAll` -/

@[simp] theorem State.rebindAll_path : (s.rebindAll).path = s.path := by
  unfold State.rebindAll; simp
@[simp] theorem State.rebindAll_store : (s.rebindAll).store = s.store := by
  unfold State.rebindAll; simp
@[simp] theorem State.rebindAll_windows : (s.rebindAll).windows = s.windows := by
  unfold State.rebindAll; simp
@[simp] theorem State.rebindAll_route : (s.rebindAll).route = s.route := by
  unfold State.rebindAll; simp
@[simp] theorem State.rebindAll_odo : (s.rebindAll).odo = s.odo := by
  unfold State.rebindAll; simp
@[simp] theorem State.rebindAll_notices : (s.rebindAll).notices = s.notices := by
  unfold State.rebindAll; simp
@[simp] theorem State.rebindAll_phase : (s.rebindAll).phase = s.phase := by
  unfold State.rebindAll; simp
@[simp] theorem State.rebindAll_report : (s.rebindAll).report = s.report := by
  unfold State.rebindAll; simp
@[simp] theorem State.rebindAll_reported : (s.rebindAll).reported = s.reported := by
  unfold State.rebindAll; simp

/-! `recomputeBanner` -/

@[simp] theorem State.recomputeBanner_path : (s.recomputeBanner).path = s.path := by
  unfold State.recomputeBanner; simp
@[simp] theorem State.recomputeBanner_store : (s.recomputeBanner).store = s.store := by
  unfold State.recomputeBanner; simp
@[simp] theorem State.recomputeBanner_route : (s.recomputeBanner).route = s.route := by
  unfold State.recomputeBanner; simp
@[simp] theorem State.recomputeBanner_odo : (s.recomputeBanner).odo = s.odo := by
  unfold State.recomputeBanner; simp
@[simp] theorem State.recomputeBanner_seats : (s.recomputeBanner).seats = s.seats := by
  unfold State.recomputeBanner; simp
@[simp] theorem State.recomputeBanner_notices : (s.recomputeBanner).notices = s.notices := by
  unfold State.recomputeBanner; simp
@[simp] theorem State.recomputeBanner_phase : (s.recomputeBanner).phase = s.phase := by
  unfold State.recomputeBanner; simp
@[simp] theorem State.recomputeBanner_report : (s.recomputeBanner).report = s.report := by
  unfold State.recomputeBanner; simp
@[simp] theorem State.recomputeBanner_journey : (s.recomputeBanner).journey = s.journey := by
  unfold State.recomputeBanner; simp
@[simp] theorem State.recomputeBanner_reported : (s.recomputeBanner).reported = s.reported := by
  unfold State.recomputeBanner; simp

/-! `bannerChanged` -/

@[simp] theorem State.bannerChanged_path : (s.bannerChanged).path = s.path := by
  unfold State.bannerChanged; simp
@[simp] theorem State.bannerChanged_store : (s.bannerChanged).store = s.store := by
  unfold State.bannerChanged; simp
@[simp] theorem State.bannerChanged_route : (s.bannerChanged).route = s.route := by
  unfold State.bannerChanged; simp
@[simp] theorem State.bannerChanged_odo : (s.bannerChanged).odo = s.odo := by
  unfold State.bannerChanged; simp
@[simp] theorem State.bannerChanged_seats : (s.bannerChanged).seats = s.seats := by
  unfold State.bannerChanged; simp
@[simp] theorem State.bannerChanged_phase : (s.bannerChanged).phase = s.phase := by
  unfold State.bannerChanged; simp
@[simp] theorem State.bannerChanged_report : (s.bannerChanged).report = s.report := by
  unfold State.bannerChanged; simp
@[simp] theorem State.bannerChanged_journey : (s.bannerChanged).journey = s.journey := by
  unfold State.bannerChanged; simp [State.journey, Notices.facts]
@[simp] theorem State.bannerChanged_reported : (s.bannerChanged).reported = s.reported := by
  unfold State.bannerChanged; simp

/-! `startShowing` -/

@[simp] theorem State.startShowing_path (e : Notice) : (s.startShowing e).path = s.path := by
  unfold State.startShowing; (repeat' split) <;> simp
@[simp] theorem State.startShowing_store (e : Notice) : (s.startShowing e).store = s.store := by
  unfold State.startShowing; (repeat' split) <;> simp
@[simp] theorem State.startShowing_route (e : Notice) : (s.startShowing e).route = s.route := by
  unfold State.startShowing; (repeat' split) <;> simp
@[simp] theorem State.startShowing_odo (e : Notice) : (s.startShowing e).odo = s.odo := by
  unfold State.startShowing; (repeat' split) <;> simp
@[simp] theorem State.startShowing_seats (e : Notice) : (s.startShowing e).seats = s.seats := by
  unfold State.startShowing; (repeat' split) <;> simp
@[simp] theorem State.startShowing_phase (e : Notice) : (s.startShowing e).phase = s.phase := by
  unfold State.startShowing; (repeat' split) <;> simp
@[simp] theorem State.startShowing_report (e : Notice) : (s.startShowing e).report = s.report := by
  unfold State.startShowing; (repeat' split) <;> simp
@[simp] theorem State.startShowing_reported (e : Notice) : (s.startShowing e).reported = s.reported := by
  unfold State.startShowing; (repeat' split) <;> simp

/-! `showNothing` -/

@[simp] theorem State.showNothing_path : (s.showNothing).path = s.path := by
  unfold State.showNothing; simp
@[simp] theorem State.showNothing_store : (s.showNothing).store = s.store := by
  unfold State.showNothing; simp
@[simp] theorem State.showNothing_route : (s.showNothing).route = s.route := by
  unfold State.showNothing; simp
@[simp] theorem State.showNothing_odo : (s.showNothing).odo = s.odo := by
  unfold State.showNothing; simp
@[simp] theorem State.showNothing_seats : (s.showNothing).seats = s.seats := by
  unfold State.showNothing; simp
@[simp] theorem State.showNothing_phase : (s.showNothing).phase = s.phase := by
  unfold State.showNothing; simp
@[simp] theorem State.showNothing_report : (s.showNothing).report = s.report := by
  unfold State.showNothing; simp
@[simp] theorem State.showNothing_reported : (s.showNothing).reported = s.reported := by
  unfold State.showNothing; simp

/-! `selectNotice` -/

@[simp] theorem State.selectNotice_path (was : Option Nat) (had : Bool) : (s.selectNotice was had).path = s.path := by
  unfold State.selectNotice; (repeat' split) <;> simp
@[simp] theorem State.selectNotice_store (was : Option Nat) (had : Bool) : (s.selectNotice was had).store = s.store := by
  unfold State.selectNotice; (repeat' split) <;> simp
@[simp] theorem State.selectNotice_route (was : Option Nat) (had : Bool) : (s.selectNotice was had).route = s.route := by
  unfold State.selectNotice; (repeat' split) <;> simp
@[simp] theorem State.selectNotice_odo (was : Option Nat) (had : Bool) : (s.selectNotice was had).odo = s.odo := by
  unfold State.selectNotice; (repeat' split) <;> simp
@[simp] theorem State.selectNotice_seats (was : Option Nat) (had : Bool) : (s.selectNotice was had).seats = s.seats := by
  unfold State.selectNotice; (repeat' split) <;> simp
@[simp] theorem State.selectNotice_phase (was : Option Nat) (had : Bool) : (s.selectNotice was had).phase = s.phase := by
  unfold State.selectNotice; (repeat' split) <;> simp
@[simp] theorem State.selectNotice_report (was : Option Nat) (had : Bool) : (s.selectNotice was had).report = s.report := by
  unfold State.selectNotice; (repeat' split) <;> simp
@[simp] theorem State.selectNotice_reported (was : Option Nat) (had : Bool) : (s.selectNotice was had).reported = s.reported := by
  unfold State.selectNotice; (repeat' split) <;> simp

/-! `rotationCheck` -/

@[simp] theorem State.rotationCheck_path (had : Bool) : (s.rotationCheck had).path = s.path := by
  unfold State.rotationCheck; (repeat' split) <;> simp
@[simp] theorem State.rotationCheck_store (had : Bool) : (s.rotationCheck had).store = s.store := by
  unfold State.rotationCheck; (repeat' split) <;> simp
@[simp] theorem State.rotationCheck_route (had : Bool) : (s.rotationCheck had).route = s.route := by
  unfold State.rotationCheck; (repeat' split) <;> simp
@[simp] theorem State.rotationCheck_odo (had : Bool) : (s.rotationCheck had).odo = s.odo := by
  unfold State.rotationCheck; (repeat' split) <;> simp
@[simp] theorem State.rotationCheck_seats (had : Bool) : (s.rotationCheck had).seats = s.seats := by
  unfold State.rotationCheck; (repeat' split) <;> simp
@[simp] theorem State.rotationCheck_phase (had : Bool) : (s.rotationCheck had).phase = s.phase := by
  unfold State.rotationCheck; (repeat' split) <;> simp
@[simp] theorem State.rotationCheck_report (had : Bool) : (s.rotationCheck had).report = s.report := by
  unfold State.rotationCheck; (repeat' split) <;> simp
@[simp] theorem State.rotationCheck_reported (had : Bool) : (s.rotationCheck had).reported = s.reported := by
  unfold State.rotationCheck; (repeat' split) <;> simp

/-! `removeNotice` -/

@[simp] theorem State.removeNotice_path (id : Nat) : (s.removeNotice id).path = s.path := by
  unfold State.removeNotice; simp
@[simp] theorem State.removeNotice_store (id : Nat) : (s.removeNotice id).store = s.store := by
  unfold State.removeNotice; simp
@[simp] theorem State.removeNotice_route (id : Nat) : (s.removeNotice id).route = s.route := by
  unfold State.removeNotice; simp
@[simp] theorem State.removeNotice_odo (id : Nat) : (s.removeNotice id).odo = s.odo := by
  unfold State.removeNotice; simp
@[simp] theorem State.removeNotice_seats (id : Nat) : (s.removeNotice id).seats = s.seats := by
  unfold State.removeNotice; simp
@[simp] theorem State.removeNotice_phase (id : Nat) : (s.removeNotice id).phase = s.phase := by
  unfold State.removeNotice; simp
@[simp] theorem State.removeNotice_report (id : Nat) : (s.removeNotice id).report = s.report := by
  unfold State.removeNotice; simp
@[simp] theorem State.removeNotice_reported (id : Nat) : (s.removeNotice id).reported = s.reported := by
  unfold State.removeNotice; simp

/-! `replaceNotice` -/

@[simp] theorem State.replaceNotice_path (x : Notice) : (s.replaceNotice x).path = s.path := by
  unfold State.replaceNotice; dsimp only; (repeat' split) <;> simp
@[simp] theorem State.replaceNotice_store (x : Notice) : (s.replaceNotice x).store = s.store := by
  unfold State.replaceNotice; dsimp only; (repeat' split) <;> simp
@[simp] theorem State.replaceNotice_route (x : Notice) : (s.replaceNotice x).route = s.route := by
  unfold State.replaceNotice; dsimp only; (repeat' split) <;> simp
@[simp] theorem State.replaceNotice_odo (x : Notice) : (s.replaceNotice x).odo = s.odo := by
  unfold State.replaceNotice; dsimp only; (repeat' split) <;> simp
@[simp] theorem State.replaceNotice_seats (x : Notice) : (s.replaceNotice x).seats = s.seats := by
  unfold State.replaceNotice; dsimp only; (repeat' split) <;> simp
@[simp] theorem State.replaceNotice_phase (x : Notice) : (s.replaceNotice x).phase = s.phase := by
  unfold State.replaceNotice; dsimp only; (repeat' split) <;> simp
@[simp] theorem State.replaceNotice_report (x : Notice) : (s.replaceNotice x).report = s.report := by
  unfold State.replaceNotice; dsimp only; (repeat' split) <;> simp
@[simp] theorem State.replaceNotice_reported (x : Notice) : (s.replaceNotice x).reported = s.reported := by
  unfold State.replaceNotice; dsimp only; (repeat' split) <;> simp

/-! `appendNotice` -/

@[simp] theorem State.appendNotice_path (x : Notice) : (s.appendNotice x).path = s.path := by
  unfold State.appendNotice; simp
@[simp] theorem State.appendNotice_store (x : Notice) : (s.appendNotice x).store = s.store := by
  unfold State.appendNotice; simp
@[simp] theorem State.appendNotice_route (x : Notice) : (s.appendNotice x).route = s.route := by
  unfold State.appendNotice; simp
@[simp] theorem State.appendNotice_odo (x : Notice) : (s.appendNotice x).odo = s.odo := by
  unfold State.appendNotice; simp
@[simp] theorem State.appendNotice_seats (x : Notice) : (s.appendNotice x).seats = s.seats := by
  unfold State.appendNotice; simp
@[simp] theorem State.appendNotice_phase (x : Notice) : (s.appendNotice x).phase = s.phase := by
  unfold State.appendNotice; simp
@[simp] theorem State.appendNotice_report (x : Notice) : (s.appendNotice x).report = s.report := by
  unfold State.appendNotice; simp
@[simp] theorem State.appendNotice_reported (x : Notice) : (s.appendNotice x).reported = s.reported := by
  unfold State.appendNotice; simp

/-! `removeAllNotices` -/

@[simp] theorem State.removeAllNotices_path (ids : List Nat) : (s.removeAllNotices ids).path = s.path := by
  unfold State.removeAllNotices; induction ids generalizing s with
  | nil => rfl
  | cons a l ih => simp [ih]
@[simp] theorem State.removeAllNotices_store (ids : List Nat) : (s.removeAllNotices ids).store = s.store := by
  unfold State.removeAllNotices; induction ids generalizing s with
  | nil => rfl
  | cons a l ih => simp [ih]
@[simp] theorem State.removeAllNotices_route (ids : List Nat) : (s.removeAllNotices ids).route = s.route := by
  unfold State.removeAllNotices; induction ids generalizing s with
  | nil => rfl
  | cons a l ih => simp [ih]
@[simp] theorem State.removeAllNotices_odo (ids : List Nat) : (s.removeAllNotices ids).odo = s.odo := by
  unfold State.removeAllNotices; induction ids generalizing s with
  | nil => rfl
  | cons a l ih => simp [ih]
@[simp] theorem State.removeAllNotices_seats (ids : List Nat) : (s.removeAllNotices ids).seats = s.seats := by
  unfold State.removeAllNotices; induction ids generalizing s with
  | nil => rfl
  | cons a l ih => simp [ih]
@[simp] theorem State.removeAllNotices_phase (ids : List Nat) : (s.removeAllNotices ids).phase = s.phase := by
  unfold State.removeAllNotices; induction ids generalizing s with
  | nil => rfl
  | cons a l ih => simp [ih]
@[simp] theorem State.removeAllNotices_report (ids : List Nat) : (s.removeAllNotices ids).report = s.report := by
  unfold State.removeAllNotices; induction ids generalizing s with
  | nil => rfl
  | cons a l ih => simp [ih]
@[simp] theorem State.removeAllNotices_reported (ids : List Nat) : (s.removeAllNotices ids).reported = s.reported := by
  unfold State.removeAllNotices; induction ids generalizing s with
  | nil => rfl
  | cons a l ih => simp [ih]

/-! `updateAuto` -/

@[simp] theorem State.updateAuto_path : (s.updateAuto).path = s.path := by
  unfold State.updateAuto; (repeat' split) <;> simp
@[simp] theorem State.updateAuto_store : (s.updateAuto).store = s.store := by
  unfold State.updateAuto; (repeat' split) <;> simp
@[simp] theorem State.updateAuto_route : (s.updateAuto).route = s.route := by
  unfold State.updateAuto; (repeat' split) <;> simp
@[simp] theorem State.updateAuto_odo : (s.updateAuto).odo = s.odo := by
  unfold State.updateAuto; (repeat' split) <;> simp
@[simp] theorem State.updateAuto_seats : (s.updateAuto).seats = s.seats := by
  unfold State.updateAuto; (repeat' split) <;> simp
@[simp] theorem State.updateAuto_phase : (s.updateAuto).phase = s.phase := by
  unfold State.updateAuto; (repeat' split) <;> simp
@[simp] theorem State.updateAuto_report : (s.updateAuto).report = s.report := by
  unfold State.updateAuto; (repeat' split) <;> simp
@[simp] theorem State.updateAuto_reported : (s.updateAuto).reported = s.reported := by
  unfold State.updateAuto; (repeat' split) <;> simp

/-! `refreshAuto` -/

@[simp] theorem State.refreshAuto_path : (s.refreshAuto).path = s.path := by
  unfold State.refreshAuto; (repeat' split) <;> simp
@[simp] theorem State.refreshAuto_store : (s.refreshAuto).store = s.store := by
  unfold State.refreshAuto; (repeat' split) <;> simp
@[simp] theorem State.refreshAuto_route : (s.refreshAuto).route = s.route := by
  unfold State.refreshAuto; (repeat' split) <;> simp
@[simp] theorem State.refreshAuto_odo : (s.refreshAuto).odo = s.odo := by
  unfold State.refreshAuto; (repeat' split) <;> simp
@[simp] theorem State.refreshAuto_seats : (s.refreshAuto).seats = s.seats := by
  unfold State.refreshAuto; (repeat' split) <;> simp
@[simp] theorem State.refreshAuto_phase : (s.refreshAuto).phase = s.phase := by
  unfold State.refreshAuto; (repeat' split) <;> simp
@[simp] theorem State.refreshAuto_report : (s.refreshAuto).report = s.report := by
  unfold State.refreshAuto; (repeat' split) <;> simp
@[simp] theorem State.refreshAuto_reported : (s.refreshAuto).reported = s.reported := by
  unfold State.refreshAuto; (repeat' split) <;> simp

/-! `compareBanner` -/

@[simp] theorem State.compareBanner_path : (s.compareBanner).path = s.path := by
  unfold State.compareBanner; (repeat' split) <;> simp
@[simp] theorem State.compareBanner_store : (s.compareBanner).store = s.store := by
  unfold State.compareBanner; (repeat' split) <;> simp
@[simp] theorem State.compareBanner_windows : (s.compareBanner).windows = s.windows := by
  unfold State.compareBanner; (repeat' split) <;> simp
@[simp] theorem State.compareBanner_route : (s.compareBanner).route = s.route := by
  unfold State.compareBanner; (repeat' split) <;> simp
@[simp] theorem State.compareBanner_odo : (s.compareBanner).odo = s.odo := by
  unfold State.compareBanner; (repeat' split) <;> simp
@[simp] theorem State.compareBanner_seats : (s.compareBanner).seats = s.seats := by
  unfold State.compareBanner; (repeat' split) <;> simp
@[simp] theorem State.compareBanner_phase : (s.compareBanner).phase = s.phase := by
  unfold State.compareBanner; (repeat' split) <;> simp
@[simp] theorem State.compareBanner_report : (s.compareBanner).report = s.report := by
  unfold State.compareBanner; (repeat' split) <;> simp
@[simp] theorem State.compareBanner_journey : (s.compareBanner).journey = s.journey := by
  unfold State.compareBanner; (repeat' split) <;> simp [State.journey, Notices.facts]
@[simp] theorem State.compareBanner_reported : (s.compareBanner).reported = s.reported := by
  unfold State.compareBanner; (repeat' split) <;> simp

/-! `invalidate` -/

@[simp] theorem State.invalidate_path : (s.invalidate).path = s.path := by
  unfold State.invalidate; simp
@[simp] theorem State.invalidate_store : (s.invalidate).store = s.store := by
  unfold State.invalidate; simp
@[simp] theorem State.invalidate_windows : (s.invalidate).windows = s.windows := by
  unfold State.invalidate; simp
@[simp] theorem State.invalidate_route : (s.invalidate).route = s.route := by
  unfold State.invalidate; simp
@[simp] theorem State.invalidate_seats : (s.invalidate).seats = s.seats := by
  unfold State.invalidate; simp
@[simp] theorem State.invalidate_notices : (s.invalidate).notices = s.notices := by
  unfold State.invalidate; simp
@[simp] theorem State.invalidate_phase : (s.invalidate).phase = s.phase := by
  unfold State.invalidate; simp
@[simp] theorem State.invalidate_report : (s.invalidate).report = s.report := by
  unfold State.invalidate; simp
@[simp] theorem State.invalidate_reported : (s.invalidate).reported = s.reported := by
  unfold State.invalidate; simp
@[simp] theorem State.invalidate_odo_figures : (s.invalidate).odo.figures = s.odo.figures := by
  unfold State.invalidate; simp [Odo.figures]

/-! `comparePosition` -/

@[simp] theorem State.comparePosition_path : (s.comparePosition).path = s.path := by
  unfold State.comparePosition; (repeat' split) <;> simp
@[simp] theorem State.comparePosition_store : (s.comparePosition).store = s.store := by
  unfold State.comparePosition; (repeat' split) <;> simp
@[simp] theorem State.comparePosition_windows : (s.comparePosition).windows = s.windows := by
  unfold State.comparePosition; (repeat' split) <;> simp
@[simp] theorem State.comparePosition_route : (s.comparePosition).route = s.route := by
  unfold State.comparePosition; (repeat' split) <;> simp
@[simp] theorem State.comparePosition_odo : (s.comparePosition).odo = s.odo := by
  unfold State.comparePosition; (repeat' split) <;> simp
@[simp] theorem State.comparePosition_seats : (s.comparePosition).seats = s.seats := by
  unfold State.comparePosition; (repeat' split) <;> simp
@[simp] theorem State.comparePosition_notices : (s.comparePosition).notices = s.notices := by
  unfold State.comparePosition; (repeat' split) <;> simp
@[simp] theorem State.comparePosition_phase : (s.comparePosition).phase = s.phase := by
  unfold State.comparePosition; (repeat' split) <;> simp
@[simp] theorem State.comparePosition_journey : (s.comparePosition).journey = s.journey := by
  unfold State.comparePosition; (repeat' split) <;> simp

/-! `copyPosition` -/

@[simp] theorem State.copyPosition_path : (s.copyPosition).path = s.path := by
  unfold State.copyPosition; simp
@[simp] theorem State.copyPosition_store : (s.copyPosition).store = s.store := by
  unfold State.copyPosition; simp
@[simp] theorem State.copyPosition_windows : (s.copyPosition).windows = s.windows := by
  unfold State.copyPosition; simp
@[simp] theorem State.copyPosition_route : (s.copyPosition).route = s.route := by
  unfold State.copyPosition; simp
@[simp] theorem State.copyPosition_odo : (s.copyPosition).odo = s.odo := by
  unfold State.copyPosition; simp
@[simp] theorem State.copyPosition_seats : (s.copyPosition).seats = s.seats := by
  unfold State.copyPosition; simp
@[simp] theorem State.copyPosition_notices : (s.copyPosition).notices = s.notices := by
  unfold State.copyPosition; simp
@[simp] theorem State.copyPosition_phase : (s.copyPosition).phase = s.phase := by
  unfold State.copyPosition; simp
@[simp] theorem State.copyPosition_journey : (s.copyPosition).journey = s.journey := by
  unfold State.copyPosition; simp

/-! `stageOdo` -/

@[simp] theorem State.stageOdo_path : (s.stageOdo).path = s.path := by
  unfold State.stageOdo; (repeat' split) <;> simp
@[simp] theorem State.stageOdo_store : (s.stageOdo).store = s.store := by
  unfold State.stageOdo; (repeat' split) <;> simp
@[simp] theorem State.stageOdo_windows : (s.stageOdo).windows = s.windows := by
  unfold State.stageOdo; (repeat' split) <;> simp
@[simp] theorem State.stageOdo_route : (s.stageOdo).route = s.route := by
  unfold State.stageOdo; (repeat' split) <;> simp
@[simp] theorem State.stageOdo_seats : (s.stageOdo).seats = s.seats := by
  unfold State.stageOdo; (repeat' split) <;> simp
@[simp] theorem State.stageOdo_notices : (s.stageOdo).notices = s.notices := by
  unfold State.stageOdo; (repeat' split) <;> simp
@[simp] theorem State.stageOdo_phase : (s.stageOdo).phase = s.phase := by
  unfold State.stageOdo; (repeat' split) <;> simp
@[simp] theorem State.stageOdo_report : (s.stageOdo).report = s.report := by
  unfold State.stageOdo; (repeat' split) <;> simp
@[simp] theorem State.stageOdo_reported : (s.stageOdo).reported = s.reported := by
  unfold State.stageOdo; (repeat' split) <;> simp

/-! `stageSeats` -/

@[simp] theorem State.stageSeats_path (old : Progress) : (s.stageSeats old).path = s.path := by
  unfold State.stageSeats; (repeat' split) <;> simp
@[simp] theorem State.stageSeats_store (old : Progress) : (s.stageSeats old).store = s.store := by
  unfold State.stageSeats; (repeat' split) <;> simp
@[simp] theorem State.stageSeats_windows (old : Progress) : (s.stageSeats old).windows = s.windows := by
  unfold State.stageSeats; (repeat' split) <;> simp
@[simp] theorem State.stageSeats_route (old : Progress) : (s.stageSeats old).route = s.route := by
  unfold State.stageSeats; (repeat' split) <;> simp
@[simp] theorem State.stageSeats_odo (old : Progress) : (s.stageSeats old).odo = s.odo := by
  unfold State.stageSeats; (repeat' split) <;> simp
@[simp] theorem State.stageSeats_notices (old : Progress) : (s.stageSeats old).notices = s.notices := by
  unfold State.stageSeats; (repeat' split) <;> simp
@[simp] theorem State.stageSeats_phase (old : Progress) : (s.stageSeats old).phase = s.phase := by
  unfold State.stageSeats; (repeat' split) <;> simp
@[simp] theorem State.stageSeats_report (old : Progress) : (s.stageSeats old).report = s.report := by
  unfold State.stageSeats; (repeat' split) <;> simp
@[simp] theorem State.stageSeats_reported (old : Progress) : (s.stageSeats old).reported = s.reported := by
  unfold State.stageSeats; (repeat' split) <;> simp

/-! `stagePhase` -/

@[simp] theorem State.stagePhase_path : (s.stagePhase).path = s.path := by
  unfold State.stagePhase; (repeat' split) <;> simp
@[simp] theorem State.stagePhase_store : (s.stagePhase).store = s.store := by
  unfold State.stagePhase; (repeat' split) <;> simp
@[simp] theorem State.stagePhase_windows : (s.stagePhase).windows = s.windows := by
  unfold State.stagePhase; (repeat' split) <;> simp
@[simp] theorem State.stagePhase_route : (s.stagePhase).route = s.route := by
  unfold State.stagePhase; (repeat' split) <;> simp
@[simp] theorem State.stagePhase_odo : (s.stagePhase).odo = s.odo := by
  unfold State.stagePhase; (repeat' split) <;> simp
@[simp] theorem State.stagePhase_seats : (s.stagePhase).seats = s.seats := by
  unfold State.stagePhase; (repeat' split) <;> simp
@[simp] theorem State.stagePhase_notices : (s.stagePhase).notices = s.notices := by
  unfold State.stagePhase; (repeat' split) <;> simp
@[simp] theorem State.stagePhase_report : (s.stagePhase).report = s.report := by
  unfold State.stagePhase; (repeat' split) <;> simp
@[simp] theorem State.stagePhase_reported : (s.stagePhase).reported = s.reported := by
  unfold State.stagePhase; (repeat' split) <;> simp

/-! `handStage` -/

@[simp] theorem State.handStage_path (old : Progress) : (s.handStage old).path = s.path := by
  unfold State.handStage; simp
@[simp] theorem State.handStage_store (old : Progress) : (s.handStage old).store = s.store := by
  unfold State.handStage; simp
@[simp] theorem State.handStage_route (old : Progress) : (s.handStage old).route = s.route := by
  unfold State.handStage; simp

/-! `recordArrival` -/

@[simp] theorem State.recordArrival_path (e : StopEntry) : (s.recordArrival e).path = s.path := by
  unfold State.recordArrival; (repeat' split) <;> simp
@[simp] theorem State.recordArrival_store (e : StopEntry) : (s.recordArrival e).store = s.store := by
  unfold State.recordArrival; (repeat' split) <;> simp
@[simp] theorem State.recordArrival_windows (e : StopEntry) : (s.recordArrival e).windows = s.windows := by
  unfold State.recordArrival; (repeat' split) <;> simp
@[simp] theorem State.recordArrival_route (e : StopEntry) : (s.recordArrival e).route = s.route := by
  unfold State.recordArrival; (repeat' split) <;> simp
@[simp] theorem State.recordArrival_odo (e : StopEntry) : (s.recordArrival e).odo = s.odo := by
  unfold State.recordArrival; (repeat' split) <;> simp
@[simp] theorem State.recordArrival_seats (e : StopEntry) : (s.recordArrival e).seats = s.seats := by
  unfold State.recordArrival; (repeat' split) <;> simp
@[simp] theorem State.recordArrival_notices (e : StopEntry) : (s.recordArrival e).notices = s.notices := by
  unfold State.recordArrival; (repeat' split) <;> simp
@[simp] theorem State.recordArrival_phase (e : StopEntry) : (s.recordArrival e).phase = s.phase := by
  unfold State.recordArrival; (repeat' split) <;> simp
@[simp] theorem State.recordArrival_journey (e : StopEntry) : (s.recordArrival e).journey = s.journey := by
  unfold State.recordArrival; (repeat' split) <;> simp

/-! `handStopReached` -/

@[simp] theorem State.handStopReached_path (slot : Nat) : (s.handStopReached slot).path = s.path := by
  unfold State.handStopReached; dsimp only; (repeat' split) <;> simp
@[simp] theorem State.handStopReached_store (slot : Nat) : (s.handStopReached slot).store = s.store := by
  unfold State.handStopReached; dsimp only; (repeat' split) <;> simp
@[simp] theorem State.handStopReached_route (slot : Nat) : (s.handStopReached slot).route = s.route := by
  unfold State.handStopReached; dsimp only; (repeat' split) <;> simp
@[simp] theorem State.handStopReached_odo (slot : Nat) : (s.handStopReached slot).odo = s.odo := by
  unfold State.handStopReached; dsimp only; (repeat' split) <;> simp
@[simp] theorem State.handStopReached_notices (slot : Nat) : (s.handStopReached slot).notices = s.notices := by
  unfold State.handStopReached; dsimp only; (repeat' split) <;> simp
@[simp] theorem State.handStopReached_phase (slot : Nat) : (s.handStopReached slot).phase = s.phase := by
  unfold State.handStopReached; dsimp only; (repeat' split) <;> simp
@[simp] theorem State.handStopReached_journey (slot : Nat) : (s.handStopReached slot).journey = s.journey := by
  unfold State.handStopReached; dsimp only; (repeat' split) <;> simp
@[simp] theorem State.handStopReached_seats_pool (slot : Nat) : (s.handStopReached slot).seats.pool = s.seats.pool := by
  unfold State.handStopReached; dsimp only; (repeat' split) <;> simp

/-! `handDeparture` -/

@[simp] theorem State.handDeparture_path (slot : Nat) : (s.handDeparture slot).path = s.path := by
  unfold State.handDeparture; simp
@[simp] theorem State.handDeparture_store (slot : Nat) : (s.handDeparture slot).store = s.store := by
  unfold State.handDeparture; simp
@[simp] theorem State.handDeparture_route (slot : Nat) : (s.handDeparture slot).route = s.route := by
  unfold State.handDeparture; simp
@[simp] theorem State.handDeparture_odo (slot : Nat) : (s.handDeparture slot).odo = s.odo := by
  unfold State.handDeparture; simp
@[simp] theorem State.handDeparture_phase (slot : Nat) : (s.handDeparture slot).phase = s.phase := by
  unfold State.handDeparture; simp
@[simp] theorem State.handDeparture_report (slot : Nat) : (s.handDeparture slot).report = s.report := by
  unfold State.handDeparture; simp
@[simp] theorem State.handDeparture_reported (slot : Nat) : (s.handDeparture slot).reported = s.reported := by
  unfold State.handDeparture; simp

/-! `handStopMissed` -/

@[simp] theorem State.handStopMissed_path : (s.handStopMissed).path = s.path := by
  unfold State.handStopMissed; simp
@[simp] theorem State.handStopMissed_store : (s.handStopMissed).store = s.store := by
  unfold State.handStopMissed; simp
@[simp] theorem State.handStopMissed_windows : (s.handStopMissed).windows = s.windows := by
  unfold State.handStopMissed; simp
@[simp] theorem State.handStopMissed_route : (s.handStopMissed).route = s.route := by
  unfold State.handStopMissed; simp
@[simp] theorem State.handStopMissed_odo : (s.handStopMissed).odo = s.odo := by
  unfold State.handStopMissed; simp
@[simp] theorem State.handStopMissed_notices : (s.handStopMissed).notices = s.notices := by
  unfold State.handStopMissed; simp
@[simp] theorem State.handStopMissed_phase : (s.handStopMissed).phase = s.phase := by
  unfold State.handStopMissed; simp
@[simp] theorem State.handStopMissed_journey : (s.handStopMissed).journey = s.journey := by
  unfold State.handStopMissed; simp
@[simp] theorem State.handStopMissed_seats_pool : (s.handStopMissed).seats.pool = s.seats.pool := by
  unfold State.handStopMissed; simp

/-! `targetNotices` -/

@[simp] theorem State.targetNotices_path : (s.targetNotices).path = s.path := by
  unfold State.targetNotices; dsimp only; (repeat' split) <;> simp
@[simp] theorem State.targetNotices_store : (s.targetNotices).store = s.store := by
  unfold State.targetNotices; dsimp only; (repeat' split) <;> simp
@[simp] theorem State.targetNotices_route : (s.targetNotices).route = s.route := by
  unfold State.targetNotices; dsimp only; (repeat' split) <;> simp
@[simp] theorem State.targetNotices_odo : (s.targetNotices).odo = s.odo := by
  unfold State.targetNotices; dsimp only; (repeat' split) <;> simp
@[simp] theorem State.targetNotices_seats : (s.targetNotices).seats = s.seats := by
  unfold State.targetNotices; dsimp only; (repeat' split) <;> simp
@[simp] theorem State.targetNotices_phase : (s.targetNotices).phase = s.phase := by
  unfold State.targetNotices; dsimp only; (repeat' split) <;> simp
@[simp] theorem State.targetNotices_report : (s.targetNotices).report = s.report := by
  unfold State.targetNotices; dsimp only; (repeat' split) <;> simp
@[simp] theorem State.targetNotices_reported : (s.targetNotices).reported = s.reported := by
  unfold State.targetNotices; dsimp only; (repeat' split) <;> simp

/-! `handTargetChange` -/

@[simp] theorem State.handTargetChange_path : (s.handTargetChange).path = s.path := by
  unfold State.handTargetChange; simp
@[simp] theorem State.handTargetChange_store : (s.handTargetChange).store = s.store := by
  unfold State.handTargetChange; simp
@[simp] theorem State.handTargetChange_route : (s.handTargetChange).route = s.route := by
  unfold State.handTargetChange; simp
@[simp] theorem State.handTargetChange_phase : (s.handTargetChange).phase = s.phase := by
  unfold State.handTargetChange; simp
@[simp] theorem State.handTargetChange_odo_figures : (s.handTargetChange).odo.figures = s.odo.figures := by
  unfold State.handTargetChange; simp
@[simp] theorem State.handTargetChange_seats_pool : (s.handTargetChange).seats.pool = s.seats.pool := by
  unfold State.handTargetChange; simp

/-! `handRouteChange` -/

@[simp] theorem State.handRouteChange_path (record : Bool) : (s.handRouteChange record).path = s.path := by
  unfold State.handRouteChange; (repeat' split) <;> simp
@[simp] theorem State.handRouteChange_store (record : Bool) : (s.handRouteChange record).store = s.store := by
  unfold State.handRouteChange; (repeat' split) <;> simp
@[simp] theorem State.handRouteChange_windows (record : Bool) : (s.handRouteChange record).windows = s.windows := by
  unfold State.handRouteChange; (repeat' split) <;> simp
@[simp] theorem State.handRouteChange_route (record : Bool) : (s.handRouteChange record).route = s.route := by
  unfold State.handRouteChange; (repeat' split) <;> simp
@[simp] theorem State.handRouteChange_odo (record : Bool) : (s.handRouteChange record).odo = s.odo := by
  unfold State.handRouteChange; (repeat' split) <;> simp
@[simp] theorem State.handRouteChange_notices (record : Bool) : (s.handRouteChange record).notices = s.notices := by
  unfold State.handRouteChange; (repeat' split) <;> simp
@[simp] theorem State.handRouteChange_phase (record : Bool) : (s.handRouteChange record).phase = s.phase := by
  unfold State.handRouteChange; (repeat' split) <;> simp

/-! `handOrientation` -/

@[simp] theorem State.handOrientation_path : (s.handOrientation).path = s.path := by
  unfold State.handOrientation; simp
@[simp] theorem State.handOrientation_store : (s.handOrientation).store = s.store := by
  unfold State.handOrientation; simp
@[simp] theorem State.handOrientation_route : (s.handOrientation).route = s.route := by
  unfold State.handOrientation; simp
@[simp] theorem State.handOrientation_odo : (s.handOrientation).odo = s.odo := by
  unfold State.handOrientation; simp
@[simp] theorem State.handOrientation_phase : (s.handOrientation).phase = s.phase := by
  unfold State.handOrientation; simp
@[simp] theorem State.handOrientation_report : (s.handOrientation).report = s.report := by
  unfold State.handOrientation; simp
@[simp] theorem State.handOrientation_journey : (s.handOrientation).journey = s.journey := by
  unfold State.handOrientation; simp
@[simp] theorem State.handOrientation_reported : (s.handOrientation).reported = s.reported := by
  unfold State.handOrientation; simp
@[simp] theorem State.handOrientation_seats_pool : (s.handOrientation).seats.pool = s.seats.pool := by
  unfold State.handOrientation; simp

/-! `handUnplannedStop` -/

@[simp] theorem State.handUnplannedStop_path : (s.handUnplannedStop).path = s.path := by
  unfold State.handUnplannedStop; simp
@[simp] theorem State.handUnplannedStop_store : (s.handUnplannedStop).store = s.store := by
  unfold State.handUnplannedStop; simp
@[simp] theorem State.handUnplannedStop_windows : (s.handUnplannedStop).windows = s.windows := by
  unfold State.handUnplannedStop; simp
@[simp] theorem State.handUnplannedStop_route : (s.handUnplannedStop).route = s.route := by
  unfold State.handUnplannedStop; simp
@[simp] theorem State.handUnplannedStop_odo : (s.handUnplannedStop).odo = s.odo := by
  unfold State.handUnplannedStop; simp
@[simp] theorem State.handUnplannedStop_seats : (s.handUnplannedStop).seats = s.seats := by
  unfold State.handUnplannedStop; simp
@[simp] theorem State.handUnplannedStop_notices : (s.handUnplannedStop).notices = s.notices := by
  unfold State.handUnplannedStop; simp
@[simp] theorem State.handUnplannedStop_phase : (s.handUnplannedStop).phase = s.phase := by
  unfold State.handUnplannedStop; simp
@[simp] theorem State.handUnplannedStop_journey : (s.handUnplannedStop).journey = s.journey := by
  unfold State.handUnplannedStop; simp

/-! `resetOdo` -/

@[simp] theorem State.resetOdo_path : (s.resetOdo).path = s.path := by
  unfold State.resetOdo; simp
@[simp] theorem State.resetOdo_store : (s.resetOdo).store = s.store := by
  unfold State.resetOdo; simp
@[simp] theorem State.resetOdo_windows : (s.resetOdo).windows = s.windows := by
  unfold State.resetOdo; simp
@[simp] theorem State.resetOdo_route : (s.resetOdo).route = s.route := by
  unfold State.resetOdo; simp
@[simp] theorem State.resetOdo_seats : (s.resetOdo).seats = s.seats := by
  unfold State.resetOdo; simp
@[simp] theorem State.resetOdo_notices : (s.resetOdo).notices = s.notices := by
  unfold State.resetOdo; simp
@[simp] theorem State.resetOdo_phase : (s.resetOdo).phase = s.phase := by
  unfold State.resetOdo; simp
@[simp] theorem State.resetOdo_report : (s.resetOdo).report = s.report := by
  unfold State.resetOdo; simp
@[simp] theorem State.resetOdo_reported : (s.resetOdo).reported = s.reported := by
  unfold State.resetOdo; simp

/-! `resetSeats` -/

@[simp] theorem State.resetSeats_path : (s.resetSeats).path = s.path := by
  unfold State.resetSeats; simp
@[simp] theorem State.resetSeats_store : (s.resetSeats).store = s.store := by
  unfold State.resetSeats; simp
@[simp] theorem State.resetSeats_windows : (s.resetSeats).windows = s.windows := by
  unfold State.resetSeats; simp
@[simp] theorem State.resetSeats_route : (s.resetSeats).route = s.route := by
  unfold State.resetSeats; simp
@[simp] theorem State.resetSeats_odo : (s.resetSeats).odo = s.odo := by
  unfold State.resetSeats; simp
@[simp] theorem State.resetSeats_notices : (s.resetSeats).notices = s.notices := by
  unfold State.resetSeats; simp
@[simp] theorem State.resetSeats_phase : (s.resetSeats).phase = s.phase := by
  unfold State.resetSeats; simp
@[simp] theorem State.resetSeats_report : (s.resetSeats).report = s.report := by
  unfold State.resetSeats; simp
@[simp] theorem State.resetSeats_reported : (s.resetSeats).reported = s.reported := by
  unfold State.resetSeats; simp

/-! `resetNotices` -/

@[simp] theorem State.resetNotices_path : (s.resetNotices).path = s.path := by
  unfold State.resetNotices; simp
@[simp] theorem State.resetNotices_store : (s.resetNotices).store = s.store := by
  unfold State.resetNotices; simp
@[simp] theorem State.resetNotices_route : (s.resetNotices).route = s.route := by
  unfold State.resetNotices; simp
@[simp] theorem State.resetNotices_odo : (s.resetNotices).odo = s.odo := by
  unfold State.resetNotices; simp
@[simp] theorem State.resetNotices_seats : (s.resetNotices).seats = s.seats := by
  unfold State.resetNotices; simp
@[simp] theorem State.resetNotices_phase : (s.resetNotices).phase = s.phase := by
  unfold State.resetNotices; simp
@[simp] theorem State.resetNotices_report : (s.resetNotices).report = s.report := by
  unfold State.resetNotices; simp
@[simp] theorem State.resetNotices_reported : (s.resetNotices).reported = s.reported := by
  unfold State.resetNotices; simp

/-! `resetReport` -/

@[simp] theorem State.resetReport_path : (s.resetReport).path = s.path := by
  unfold State.resetReport; simp
@[simp] theorem State.resetReport_store : (s.resetReport).store = s.store := by
  unfold State.resetReport; simp
@[simp] theorem State.resetReport_windows : (s.resetReport).windows = s.windows := by
  unfold State.resetReport; simp
@[simp] theorem State.resetReport_route : (s.resetReport).route = s.route := by
  unfold State.resetReport; simp
@[simp] theorem State.resetReport_odo : (s.resetReport).odo = s.odo := by
  unfold State.resetReport; simp
@[simp] theorem State.resetReport_seats : (s.resetReport).seats = s.seats := by
  unfold State.resetReport; simp
@[simp] theorem State.resetReport_notices : (s.resetReport).notices = s.notices := by
  unfold State.resetReport; simp
@[simp] theorem State.resetReport_phase : (s.resetReport).phase = s.phase := by
  unfold State.resetReport; simp
@[simp] theorem State.resetReport_journey : (s.resetReport).journey = s.journey := by
  unfold State.resetReport; simp

/-! `handJourneyReset` -/

@[simp] theorem State.handJourneyReset_path : (s.handJourneyReset).path = s.path := by
  unfold State.handJourneyReset; simp
@[simp] theorem State.handJourneyReset_store : (s.handJourneyReset).store = s.store := by
  unfold State.handJourneyReset; simp
@[simp] theorem State.handJourneyReset_route : (s.handJourneyReset).route = s.route := by
  unfold State.handJourneyReset; simp
@[simp] theorem State.handJourneyReset_phase : (s.handJourneyReset).phase = s.phase := by
  unfold State.handJourneyReset; simp

/-! `handWindowEnd` -/

@[simp] theorem State.handWindowEnd_path : (s.handWindowEnd).path = s.path := by
  unfold State.handWindowEnd; simp
@[simp] theorem State.handWindowEnd_store : (s.handWindowEnd).store = s.store := by
  unfold State.handWindowEnd; simp
@[simp] theorem State.handWindowEnd_windows : (s.handWindowEnd).windows = s.windows := by
  unfold State.handWindowEnd; simp
@[simp] theorem State.handWindowEnd_odo : (s.handWindowEnd).odo = s.odo := by
  unfold State.handWindowEnd; simp
@[simp] theorem State.handWindowEnd_seats : (s.handWindowEnd).seats = s.seats := by
  unfold State.handWindowEnd; simp
@[simp] theorem State.handWindowEnd_phase : (s.handWindowEnd).phase = s.phase := by
  unfold State.handWindowEnd; simp
@[simp] theorem State.handWindowEnd_journey : (s.handWindowEnd).journey = s.journey := by
  unfold State.handWindowEnd; simp
@[simp] theorem State.handWindowEnd_route_facts : (s.handWindowEnd).route.facts = s.route.facts := by
  unfold State.handWindowEnd; simp
@[simp] theorem State.handWindowEnd_route_plan : (s.handWindowEnd).route.plan = s.route.plan := by
  unfold State.handWindowEnd; simp
@[simp] theorem State.handWindowEnd_route_settings : (s.handWindowEnd).route.settings = s.route.settings := by
  unfold State.handWindowEnd; simp
@[simp] theorem State.handWindowEnd_route_progress : (s.handWindowEnd).route.progress = s.route.progress := by
  unfold State.handWindowEnd; simp

/-! `handPositionSet` -/

@[simp] theorem State.handPositionSet_path : (s.handPositionSet).path = s.path := by
  unfold State.handPositionSet; simp
@[simp] theorem State.handPositionSet_store : (s.handPositionSet).store = s.store := by
  unfold State.handPositionSet; simp
@[simp] theorem State.handPositionSet_windows : (s.handPositionSet).windows = s.windows := by
  unfold State.handPositionSet; simp
@[simp] theorem State.handPositionSet_route : (s.handPositionSet).route = s.route := by
  unfold State.handPositionSet; simp
@[simp] theorem State.handPositionSet_odo : (s.handPositionSet).odo = s.odo := by
  unfold State.handPositionSet; simp
@[simp] theorem State.handPositionSet_seats : (s.handPositionSet).seats = s.seats := by
  unfold State.handPositionSet; simp
@[simp] theorem State.handPositionSet_phase : (s.handPositionSet).phase = s.phase := by
  unfold State.handPositionSet; simp
@[simp] theorem State.handPositionSet_journey : (s.handPositionSet).journey = s.journey := by
  unfold State.handPositionSet; simp

/-! `handClockChange` -/

@[simp] theorem State.handClockChange_path : (s.handClockChange).path = s.path := by
  unfold State.handClockChange; simp
@[simp] theorem State.handClockChange_store : (s.handClockChange).store = s.store := by
  unfold State.handClockChange; simp
@[simp] theorem State.handClockChange_windows : (s.handClockChange).windows = s.windows := by
  unfold State.handClockChange; simp
@[simp] theorem State.handClockChange_odo : (s.handClockChange).odo = s.odo := by
  unfold State.handClockChange; simp
@[simp] theorem State.handClockChange_seats : (s.handClockChange).seats = s.seats := by
  unfold State.handClockChange; simp
@[simp] theorem State.handClockChange_phase : (s.handClockChange).phase = s.phase := by
  unfold State.handClockChange; simp
@[simp] theorem State.handClockChange_journey : (s.handClockChange).journey = s.journey := by
  unfold State.handClockChange; simp
@[simp] theorem State.handClockChange_route_facts : (s.handClockChange).route.facts = s.route.facts := by
  unfold State.handClockChange; simp
@[simp] theorem State.handClockChange_route_plan : (s.handClockChange).route.plan = s.route.plan := by
  unfold State.handClockChange; simp
@[simp] theorem State.handClockChange_route_settings : (s.handClockChange).route.settings = s.route.settings := by
  unfold State.handClockChange; simp
@[simp] theorem State.handClockChange_route_progress : (s.handClockChange).route.progress = s.route.progress := by
  unfold State.handClockChange; simp

/-! `handDelayChange` -/

@[simp] theorem State.handDelayChange_path : (s.handDelayChange).path = s.path := by
  unfold State.handDelayChange; simp
@[simp] theorem State.handDelayChange_store : (s.handDelayChange).store = s.store := by
  unfold State.handDelayChange; simp
@[simp] theorem State.handDelayChange_windows : (s.handDelayChange).windows = s.windows := by
  unfold State.handDelayChange; simp
@[simp] theorem State.handDelayChange_route : (s.handDelayChange).route = s.route := by
  unfold State.handDelayChange; simp
@[simp] theorem State.handDelayChange_odo : (s.handDelayChange).odo = s.odo := by
  unfold State.handDelayChange; simp
@[simp] theorem State.handDelayChange_seats : (s.handDelayChange).seats = s.seats := by
  unfold State.handDelayChange; simp
@[simp] theorem State.handDelayChange_notices : (s.handDelayChange).notices = s.notices := by
  unfold State.handDelayChange; simp
@[simp] theorem State.handDelayChange_phase : (s.handDelayChange).phase = s.phase := by
  unfold State.handDelayChange; simp
@[simp] theorem State.handDelayChange_journey : (s.handDelayChange).journey = s.journey := by
  unfold State.handDelayChange; simp

/-! `enterStage` -/

@[simp] theorem State.enterStage_path (p : Progress) : (s.enterStage p).path = s.path := by
  unfold State.enterStage; simp
@[simp] theorem State.enterStage_store (p : Progress) : (s.enterStage p).store = s.store := by
  unfold State.enterStage; simp
@[simp] theorem State.enterStage_route_plan (p : Progress) : (s.enterStage p).route.plan = s.route.plan := by
  unfold State.enterStage; simp [Route.plan]
@[simp] theorem State.enterStage_route_settings (p : Progress) : (s.enterStage p).route.settings = s.route.settings := by
  unfold State.enterStage; simp [Route.settings]

/-! `rederive` -/

@[simp] theorem State.rederive_path : (s.rederive).path = s.path := by
  unfold State.rederive; (repeat' split) <;> simp
@[simp] theorem State.rederive_store : (s.rederive).store = s.store := by
  unfold State.rederive; (repeat' split) <;> simp
@[simp] theorem State.rederive_route_plan : (s.rederive).route.plan = s.route.plan := by
  unfold State.rederive; (repeat' split) <;> simp
@[simp] theorem State.rederive_route_settings : (s.rederive).route.settings = s.route.settings := by
  unfold State.rederive; (repeat' split) <;> simp

/-! `reselect` -/

@[simp] theorem State.reselect_path (old : Option Nat) (replaced : Bool) : (s.reselect old replaced).path = s.path := by
  unfold State.reselect; dsimp only; (repeat' split) <;> simp
@[simp] theorem State.reselect_store (old : Option Nat) (replaced : Bool) : (s.reselect old replaced).store = s.store := by
  unfold State.reselect; dsimp only; (repeat' split) <;> simp
@[simp] theorem State.reselect_route_plan (old : Option Nat) (replaced : Bool) : (s.reselect old replaced).route.plan = s.route.plan := by
  unfold State.reselect; dsimp only; (repeat' split) <;> simp
@[simp] theorem State.reselect_route_settings (old : Option Nat) (replaced : Bool) : (s.reselect old replaced).route.settings = s.route.settings := by
  unfold State.reselect; dsimp only; (repeat' split) <;> simp

/-! `rederiveTimingPoints` -/

@[simp] theorem State.rederiveTimingPoints_path : (s.rederiveTimingPoints).path = s.path := by
  unfold State.rederiveTimingPoints; (repeat' split) <;> simp
@[simp] theorem State.rederiveTimingPoints_store : (s.rederiveTimingPoints).store = s.store := by
  unfold State.rederiveTimingPoints; (repeat' split) <;> simp
@[simp] theorem State.rederiveTimingPoints_windows : (s.rederiveTimingPoints).windows = s.windows := by
  unfold State.rederiveTimingPoints; (repeat' split) <;> simp
@[simp] theorem State.rederiveTimingPoints_odo : (s.rederiveTimingPoints).odo = s.odo := by
  unfold State.rederiveTimingPoints; (repeat' split) <;> simp
@[simp] theorem State.rederiveTimingPoints_seats : (s.rederiveTimingPoints).seats = s.seats := by
  unfold State.rederiveTimingPoints; (repeat' split) <;> simp
@[simp] theorem State.rederiveTimingPoints_notices : (s.rederiveTimingPoints).notices = s.notices := by
  unfold State.rederiveTimingPoints; (repeat' split) <;> simp
@[simp] theorem State.rederiveTimingPoints_phase : (s.rederiveTimingPoints).phase = s.phase := by
  unfold State.rederiveTimingPoints; (repeat' split) <;> simp
@[simp] theorem State.rederiveTimingPoints_report : (s.rederiveTimingPoints).report = s.report := by
  unfold State.rederiveTimingPoints; (repeat' split) <;> simp
@[simp] theorem State.rederiveTimingPoints_reported : (s.rederiveTimingPoints).reported = s.reported := by
  unfold State.rederiveTimingPoints; (repeat' split) <;> simp
@[simp] theorem State.rederiveTimingPoints_route_plan : (s.rederiveTimingPoints).route.plan = s.route.plan := by
  unfold State.rederiveTimingPoints; (repeat' split) <;> simp
@[simp] theorem State.rederiveTimingPoints_route_settings : (s.rederiveTimingPoints).route.settings = s.route.settings := by
  unfold State.rederiveTimingPoints; (repeat' split) <;> simp
@[simp] theorem State.rederiveTimingPoints_route_progress : (s.rederiveTimingPoints).route.progress = s.route.progress := by
  unfold State.rederiveTimingPoints; (repeat' split) <;> simp

/-! `setPosition` -/

@[simp] theorem State.setPosition_path (p : Nat) : (s.setPosition p).path = s.path := by
  unfold State.setPosition; (repeat' split) <;> simp
@[simp] theorem State.setPosition_store (p : Nat) : (s.setPosition p).store = s.store := by
  unfold State.setPosition; (repeat' split) <;> simp
@[simp] theorem State.setPosition_windows (p : Nat) : (s.setPosition p).windows = s.windows := by
  unfold State.setPosition; (repeat' split) <;> simp
@[simp] theorem State.setPosition_seats (p : Nat) : (s.setPosition p).seats = s.seats := by
  unfold State.setPosition; (repeat' split) <;> simp
@[simp] theorem State.setPosition_notices (p : Nat) : (s.setPosition p).notices = s.notices := by
  unfold State.setPosition; (repeat' split) <;> simp
@[simp] theorem State.setPosition_phase (p : Nat) : (s.setPosition p).phase = s.phase := by
  unfold State.setPosition; (repeat' split) <;> simp
@[simp] theorem State.setPosition_route_plan (p : Nat) : (s.setPosition p).route.plan = s.route.plan := by
  unfold State.setPosition; (repeat' split) <;> simp
@[simp] theorem State.setPosition_route_settings (p : Nat) : (s.setPosition p).route.settings = s.route.settings := by
  unfold State.setPosition; (repeat' split) <;> simp
@[simp] theorem State.setPosition_route_progress (p : Nat) : (s.setPosition p).route.progress = s.route.progress := by
  unfold State.setPosition; (repeat' split) <;> simp

/-! `impliedFix` -/

@[simp] theorem State.impliedFix_path (x : Nat) : (s.impliedFix x).path = s.path := by
  unfold State.impliedFix; (repeat' split) <;> simp
@[simp] theorem State.impliedFix_store (x : Nat) : (s.impliedFix x).store = s.store := by
  unfold State.impliedFix; (repeat' split) <;> simp
@[simp] theorem State.impliedFix_windows (x : Nat) : (s.impliedFix x).windows = s.windows := by
  unfold State.impliedFix; (repeat' split) <;> simp
@[simp] theorem State.impliedFix_seats (x : Nat) : (s.impliedFix x).seats = s.seats := by
  unfold State.impliedFix; (repeat' split) <;> simp
@[simp] theorem State.impliedFix_phase (x : Nat) : (s.impliedFix x).phase = s.phase := by
  unfold State.impliedFix; (repeat' split) <;> simp
@[simp] theorem State.impliedFix_route_plan (x : Nat) : (s.impliedFix x).route.plan = s.route.plan := by
  unfold State.impliedFix; (repeat' split) <;> simp
@[simp] theorem State.impliedFix_route_settings (x : Nat) : (s.impliedFix x).route.settings = s.route.settings := by
  unfold State.impliedFix; (repeat' split) <;> simp
@[simp] theorem State.impliedFix_route_progress (x : Nat) : (s.impliedFix x).route.progress = s.route.progress := by
  unfold State.impliedFix; (repeat' split) <;> simp

/-! `arrive` -/

@[simp] theorem State.arrive_path (x : Nat) (jumped called : Bool) : (s.arrive x jumped called).path = s.path := by
  unfold State.arrive; dsimp only; (repeat' split) <;> simp
@[simp] theorem State.arrive_store (x : Nat) (jumped called : Bool) : (s.arrive x jumped called).store = s.store := by
  unfold State.arrive; dsimp only; (repeat' split) <;> simp
@[simp] theorem State.arrive_route_plan (x : Nat) (jumped called : Bool) : (s.arrive x jumped called).route.plan = s.route.plan := by
  unfold State.arrive; dsimp only; (repeat' split) <;> simp
@[simp] theorem State.arrive_route_settings (x : Nat) (jumped called : Bool) : (s.arrive x jumped called).route.settings = s.route.settings := by
  unfold State.arrive; dsimp only; (repeat' split) <;> simp

/-! `leaveCurrent` -/

@[simp] theorem State.leaveCurrent_path : (s.leaveCurrent).path = s.path := by
  unfold State.leaveCurrent; (repeat' split) <;> simp
@[simp] theorem State.leaveCurrent_store : (s.leaveCurrent).store = s.store := by
  unfold State.leaveCurrent; (repeat' split) <;> simp
@[simp] theorem State.leaveCurrent_route : (s.leaveCurrent).route = s.route := by
  unfold State.leaveCurrent; (repeat' split) <;> simp
@[simp] theorem State.leaveCurrent_odo : (s.leaveCurrent).odo = s.odo := by
  unfold State.leaveCurrent; (repeat' split) <;> simp
@[simp] theorem State.leaveCurrent_phase : (s.leaveCurrent).phase = s.phase := by
  unfold State.leaveCurrent; (repeat' split) <;> simp
@[simp] theorem State.leaveCurrent_report : (s.leaveCurrent).report = s.report := by
  unfold State.leaveCurrent; (repeat' split) <;> simp
@[simp] theorem State.leaveCurrent_reported : (s.leaveCurrent).reported = s.reported := by
  unfold State.leaveCurrent; (repeat' split) <;> simp

/-! `departNow` -/

@[simp] theorem State.departNow_path : (s.departNow).path = s.path := by
  unfold State.departNow; simp
@[simp] theorem State.departNow_store : (s.departNow).store = s.store := by
  unfold State.departNow; simp
@[simp] theorem State.departNow_route_plan : (s.departNow).route.plan = s.route.plan := by
  unfold State.departNow; simp
@[simp] theorem State.departNow_route_settings : (s.departNow).route.settings = s.route.settings := by
  unfold State.departNow; simp

/-! `passTimingPoints` -/

@[simp] theorem State.passTimingPoints_path : (s.passTimingPoints).path = s.path := by
  unfold State.passTimingPoints; (repeat' split) <;> simp
@[simp] theorem State.passTimingPoints_store : (s.passTimingPoints).store = s.store := by
  unfold State.passTimingPoints; (repeat' split) <;> simp
@[simp] theorem State.passTimingPoints_windows : (s.passTimingPoints).windows = s.windows := by
  unfold State.passTimingPoints; (repeat' split) <;> simp
@[simp] theorem State.passTimingPoints_odo : (s.passTimingPoints).odo = s.odo := by
  unfold State.passTimingPoints; (repeat' split) <;> simp
@[simp] theorem State.passTimingPoints_seats : (s.passTimingPoints).seats = s.seats := by
  unfold State.passTimingPoints; (repeat' split) <;> simp
@[simp] theorem State.passTimingPoints_notices : (s.passTimingPoints).notices = s.notices := by
  unfold State.passTimingPoints; (repeat' split) <;> simp
@[simp] theorem State.passTimingPoints_phase : (s.passTimingPoints).phase = s.phase := by
  unfold State.passTimingPoints; (repeat' split) <;> simp
@[simp] theorem State.passTimingPoints_report : (s.passTimingPoints).report = s.report := by
  unfold State.passTimingPoints; (repeat' split) <;> simp
@[simp] theorem State.passTimingPoints_reported : (s.passTimingPoints).reported = s.reported := by
  unfold State.passTimingPoints; (repeat' split) <;> simp
@[simp] theorem State.passTimingPoints_route_plan : (s.passTimingPoints).route.plan = s.route.plan := by
  unfold State.passTimingPoints; (repeat' split) <;> simp
@[simp] theorem State.passTimingPoints_route_settings : (s.passTimingPoints).route.settings = s.route.settings := by
  unfold State.passTimingPoints; (repeat' split) <;> simp
@[simp] theorem State.passTimingPoints_route_progress : (s.passTimingPoints).route.progress = s.route.progress := by
  unfold State.passTimingPoints; (repeat' split) <;> simp

/-! `leavePreJourney` -/

@[simp] theorem State.leavePreJourney_path : (s.leavePreJourney).path = s.path := by
  unfold State.leavePreJourney; (repeat' split) <;> simp
@[simp] theorem State.leavePreJourney_store : (s.leavePreJourney).store = s.store := by
  unfold State.leavePreJourney; (repeat' split) <;> simp
@[simp] theorem State.leavePreJourney_route_plan : (s.leavePreJourney).route.plan = s.route.plan := by
  unfold State.leavePreJourney; (repeat' split) <;> simp
@[simp] theorem State.leavePreJourney_route_settings : (s.leavePreJourney).route.settings = s.route.settings := by
  unfold State.leavePreJourney; (repeat' split) <;> simp

/-! `missTarget` -/

@[simp] theorem State.missTarget_path (t : Nat) : (s.missTarget t).path = s.path := by
  unfold State.missTarget; simp
@[simp] theorem State.missTarget_store (t : Nat) : (s.missTarget t).store = s.store := by
  unfold State.missTarget; simp
@[simp] theorem State.missTarget_phase (t : Nat) : (s.missTarget t).phase = s.phase := by
  unfold State.missTarget; simp
@[simp] theorem State.missTarget_odo_figures (t : Nat) : (s.missTarget t).odo.figures = s.odo.figures := by
  unfold State.missTarget; simp
@[simp] theorem State.missTarget_seats_pool (t : Nat) : (s.missTarget t).seats.pool = s.seats.pool := by
  unfold State.missTarget; simp
@[simp] theorem State.missTarget_route_progress (t : Nat) : (s.missTarget t).route.progress = s.route.progress := by
  unfold State.missTarget; simp

/-! `missAll` -/

@[simp] theorem State.missAll_path (n : Nat) : (s.missAll n).path = s.path := by
  induction n generalizing s with
  | zero => rfl
  | succ n ih => unfold State.missAll; split <;> simp [ih]
@[simp] theorem State.missAll_store (n : Nat) : (s.missAll n).store = s.store := by
  induction n generalizing s with
  | zero => rfl
  | succ n ih => unfold State.missAll; split <;> simp [ih]
@[simp] theorem State.missAll_phase (n : Nat) : (s.missAll n).phase = s.phase := by
  induction n generalizing s with
  | zero => rfl
  | succ n ih => unfold State.missAll; split <;> simp [ih]
@[simp] theorem State.missAll_odo_figures (n : Nat) : (s.missAll n).odo.figures = s.odo.figures := by
  induction n generalizing s with
  | zero => rfl
  | succ n ih => unfold State.missAll; split <;> simp [ih]
@[simp] theorem State.missAll_seats_pool (n : Nat) : (s.missAll n).seats.pool = s.seats.pool := by
  induction n generalizing s with
  | zero => rfl
  | succ n ih => unfold State.missAll; split <;> simp [ih]
@[simp] theorem State.missAll_route_progress (n : Nat) : (s.missAll n).route.progress = s.route.progress := by
  induction n generalizing s with
  | zero => rfl
  | succ n ih => unfold State.missAll; split <;> simp [ih]

/-! `moveForward` -/

@[simp] theorem State.moveForward_path : (s.moveForward).path = s.path := by
  unfold State.moveForward; (repeat' split) <;> simp
@[simp] theorem State.moveForward_store : (s.moveForward).store = s.store := by
  unfold State.moveForward; (repeat' split) <;> simp
@[simp] theorem State.moveForward_route_plan : (s.moveForward).route.plan = s.route.plan := by
  unfold State.moveForward; (repeat' split) <;> simp
@[simp] theorem State.moveForward_route_settings : (s.moveForward).route.settings = s.route.settings := by
  unfold State.moveForward; (repeat' split) <;> simp

/-! `routeWindowEnd` -/

@[simp] theorem State.routeWindowEnd_path : (s.routeWindowEnd).path = s.path := by
  unfold State.routeWindowEnd; dsimp only; (repeat' split) <;> simp
@[simp] theorem State.routeWindowEnd_store : (s.routeWindowEnd).store = s.store := by
  unfold State.routeWindowEnd; dsimp only; (repeat' split) <;> simp

/-! `computeEstimate` -/

@[simp] theorem State.computeEstimate_path : (s.computeEstimate).path = s.path := by
  unfold State.computeEstimate; (repeat' split) <;> simp
@[simp] theorem State.computeEstimate_store : (s.computeEstimate).store = s.store := by
  unfold State.computeEstimate; (repeat' split) <;> simp
@[simp] theorem State.computeEstimate_windows : (s.computeEstimate).windows = s.windows := by
  unfold State.computeEstimate; (repeat' split) <;> simp
@[simp] theorem State.computeEstimate_route : (s.computeEstimate).route = s.route := by
  unfold State.computeEstimate; (repeat' split) <;> simp
@[simp] theorem State.computeEstimate_seats : (s.computeEstimate).seats = s.seats := by
  unfold State.computeEstimate; (repeat' split) <;> simp
@[simp] theorem State.computeEstimate_notices : (s.computeEstimate).notices = s.notices := by
  unfold State.computeEstimate; (repeat' split) <;> simp
@[simp] theorem State.computeEstimate_phase : (s.computeEstimate).phase = s.phase := by
  unfold State.computeEstimate; (repeat' split) <;> simp
@[simp] theorem State.computeEstimate_report : (s.computeEstimate).report = s.report := by
  unfold State.computeEstimate; (repeat' split) <;> simp
@[simp] theorem State.computeEstimate_reported : (s.computeEstimate).reported = s.reported := by
  unfold State.computeEstimate; (repeat' split) <;> simp
@[simp] theorem State.computeEstimate_odo_figures : (s.computeEstimate).odo.figures = s.odo.figures := by
  unfold State.computeEstimate; (repeat' split) <;> simp [Odo.figures]

/-! `zeroRemaining` -/

@[simp] theorem State.zeroRemaining_path : (s.zeroRemaining).path = s.path := by
  unfold State.zeroRemaining; (repeat' split) <;> simp
@[simp] theorem State.zeroRemaining_store : (s.zeroRemaining).store = s.store := by
  unfold State.zeroRemaining; (repeat' split) <;> simp
@[simp] theorem State.zeroRemaining_windows : (s.zeroRemaining).windows = s.windows := by
  unfold State.zeroRemaining; (repeat' split) <;> simp
@[simp] theorem State.zeroRemaining_route : (s.zeroRemaining).route = s.route := by
  unfold State.zeroRemaining; (repeat' split) <;> simp
@[simp] theorem State.zeroRemaining_seats : (s.zeroRemaining).seats = s.seats := by
  unfold State.zeroRemaining; (repeat' split) <;> simp
@[simp] theorem State.zeroRemaining_notices : (s.zeroRemaining).notices = s.notices := by
  unfold State.zeroRemaining; (repeat' split) <;> simp
@[simp] theorem State.zeroRemaining_phase : (s.zeroRemaining).phase = s.phase := by
  unfold State.zeroRemaining; (repeat' split) <;> simp
@[simp] theorem State.zeroRemaining_report : (s.zeroRemaining).report = s.report := by
  unfold State.zeroRemaining; (repeat' split) <;> simp
@[simp] theorem State.zeroRemaining_reported : (s.zeroRemaining).reported = s.reported := by
  unfold State.zeroRemaining; (repeat' split) <;> simp
@[simp] theorem State.zeroRemaining_odo_figures : (s.zeroRemaining).odo.figures = s.odo.figures := by
  unfold State.zeroRemaining; (repeat' split) <;> simp [Odo.figures]

/-! `setDepartFlag` -/

@[simp] theorem State.setDepartFlag_path (b : Bool) : (s.setDepartFlag b).path = s.path := by
  unfold State.setDepartFlag; simp
@[simp] theorem State.setDepartFlag_store (b : Bool) : (s.setDepartFlag b).store = s.store := by
  unfold State.setDepartFlag; simp
@[simp] theorem State.setDepartFlag_windows (b : Bool) : (s.setDepartFlag b).windows = s.windows := by
  unfold State.setDepartFlag; simp
@[simp] theorem State.setDepartFlag_odo (b : Bool) : (s.setDepartFlag b).odo = s.odo := by
  unfold State.setDepartFlag; simp
@[simp] theorem State.setDepartFlag_seats (b : Bool) : (s.setDepartFlag b).seats = s.seats := by
  unfold State.setDepartFlag; simp
@[simp] theorem State.setDepartFlag_notices (b : Bool) : (s.setDepartFlag b).notices = s.notices := by
  unfold State.setDepartFlag; simp
@[simp] theorem State.setDepartFlag_phase (b : Bool) : (s.setDepartFlag b).phase = s.phase := by
  unfold State.setDepartFlag; simp
@[simp] theorem State.setDepartFlag_report (b : Bool) : (s.setDepartFlag b).report = s.report := by
  unfold State.setDepartFlag; simp
@[simp] theorem State.setDepartFlag_reported (b : Bool) : (s.setDepartFlag b).reported = s.reported := by
  unfold State.setDepartFlag; simp
@[simp] theorem State.setDepartFlag_route_plan (b : Bool) : (s.setDepartFlag b).route.plan = s.route.plan := by
  unfold State.setDepartFlag; simp [Route.plan]
@[simp] theorem State.setDepartFlag_route_settings (b : Bool) : (s.setDepartFlag b).route.settings = s.route.settings := by
  unfold State.setDepartFlag; simp [Route.settings]
@[simp] theorem State.setDepartFlag_route_progress (b : Bool) : (s.setDepartFlag b).route.progress = s.route.progress := by
  unfold State.setDepartFlag; simp

/-! `haltNow` -/

@[simp] theorem State.haltNow_path : (s.haltNow).path = s.path := by
  unfold State.haltNow; simp
@[simp] theorem State.haltNow_store : (s.haltNow).store = s.store := by
  unfold State.haltNow; simp
@[simp] theorem State.haltNow_route_plan : (s.haltNow).route.plan = s.route.plan := by
  unfold State.haltNow; simp
@[simp] theorem State.haltNow_route_settings : (s.haltNow).route.settings = s.route.settings := by
  unfold State.haltNow; simp

/-! `releaseMoving` -/

@[simp] theorem State.releaseMoving_path : (s.releaseMoving).path = s.path := by
  unfold State.releaseMoving; (repeat' split) <;> simp
@[simp] theorem State.releaseMoving_store : (s.releaseMoving).store = s.store := by
  unfold State.releaseMoving; (repeat' split) <;> simp
@[simp] theorem State.releaseMoving_route_plan : (s.releaseMoving).route.plan = s.route.plan := by
  unfold State.releaseMoving; (repeat' split) <;> simp
@[simp] theorem State.releaseMoving_route_settings : (s.releaseMoving).route.settings = s.route.settings := by
  unfold State.releaseMoving; (repeat' split) <;> simp

/-! `doorReleased` -/

@[simp] theorem State.doorReleased_path : (s.doorReleased).path = s.path := by
  unfold State.doorReleased; (repeat' split) <;> simp
@[simp] theorem State.doorReleased_store : (s.doorReleased).store = s.store := by
  unfold State.doorReleased; (repeat' split) <;> simp
@[simp] theorem State.doorReleased_route_plan : (s.doorReleased).route.plan = s.route.plan := by
  unfold State.doorReleased; (repeat' split) <;> simp
@[simp] theorem State.doorReleased_route_settings : (s.doorReleased).route.settings = s.route.settings := by
  unfold State.doorReleased; (repeat' split) <;> simp

/-! `doorClosed` -/

@[simp] theorem State.doorClosed_path : (s.doorClosed).path = s.path := by
  unfold State.doorClosed; (repeat' split) <;> simp
@[simp] theorem State.doorClosed_store : (s.doorClosed).store = s.store := by
  unfold State.doorClosed; (repeat' split) <;> simp
@[simp] theorem State.doorClosed_route_plan : (s.doorClosed).route.plan = s.route.plan := by
  unfold State.doorClosed; (repeat' split) <;> simp
@[simp] theorem State.doorClosed_route_settings : (s.doorClosed).route.settings = s.route.settings := by
  unfold State.doorClosed; (repeat' split) <;> simp

/-! `reportPulse` -/

@[simp] theorem State.reportPulse_path : (s.reportPulse).path = s.path := by
  unfold State.reportPulse; (repeat' split) <;> simp
@[simp] theorem State.reportPulse_store : (s.reportPulse).store = s.store := by
  unfold State.reportPulse; (repeat' split) <;> simp
@[simp] theorem State.reportPulse_route_plan : (s.reportPulse).route.plan = s.route.plan := by
  unfold State.reportPulse; (repeat' split) <;> simp
@[simp] theorem State.reportPulse_route_settings : (s.reportPulse).route.settings = s.route.settings := by
  unfold State.reportPulse; (repeat' split) <;> simp

/-! `popHead` -/

@[simp] theorem State.popHead_store : (s.popHead).store = s.store := by
  unfold State.popHead; simp
@[simp] theorem State.popHead_windows : (s.popHead).windows = s.windows := by
  unfold State.popHead; simp
@[simp] theorem State.popHead_route : (s.popHead).route = s.route := by
  unfold State.popHead; simp
@[simp] theorem State.popHead_odo : (s.popHead).odo = s.odo := by
  unfold State.popHead; simp
@[simp] theorem State.popHead_seats : (s.popHead).seats = s.seats := by
  unfold State.popHead; simp
@[simp] theorem State.popHead_notices : (s.popHead).notices = s.notices := by
  unfold State.popHead; simp
@[simp] theorem State.popHead_phase : (s.popHead).phase = s.phase := by
  unfold State.popHead; simp
@[simp] theorem State.popHead_report : (s.popHead).report = s.report := by
  unfold State.popHead; simp
@[simp] theorem State.popHead_journey : (s.popHead).journey = s.journey := by
  unfold State.popHead; simp
@[simp] theorem State.popHead_reported : (s.popHead).reported = s.reported := by
  unfold State.popHead; simp

/-! `mergeHeld`: the Line Store alone (R102, R103) -/

@[simp] theorem State.mergeHeld_path (t : Transfer) : (s.mergeHeld t).path = s.path := by
  unfold State.mergeHeld; split <;> rfl
@[simp] theorem State.mergeHeld_windows (t : Transfer) : (s.mergeHeld t).windows = s.windows := by
  unfold State.mergeHeld; split <;> rfl
@[simp] theorem State.mergeHeld_journey (t : Transfer) : (s.mergeHeld t).journey = s.journey := by
  unfold State.mergeHeld; split <;> rfl
@[simp] theorem State.mergeHeld_report (t : Transfer) : (s.mergeHeld t).report = s.report := by
  unfold State.mergeHeld; split <;> rfl
@[simp] theorem State.mergeHeld_reported (t : Transfer) : (s.mergeHeld t).reported = s.reported := by
  unfold State.mergeHeld; split <;> rfl

/-- A write without a held word leaves the Line Store as it stands (R102). -/
theorem State.mergeHeld_zero (t : Transfer) (h : s.heldCount t = 0) : s.mergeHeld t = s := by
  unfold State.mergeHeld; rw [if_pos h]

/-! `followWheel`: the line and the filter's level (R28) -/

@[simp] theorem State.followWheel_pins (level : Bool) :
    (s.followWheel level).pins = { s.pins with wheel := level } := rfl
@[simp] theorem State.followWheel_odo (level : Bool) :
    (s.followWheel level).odo = { s.odo with wheelLevel := some level } := rfl
@[simp] theorem State.followWheel_path (level : Bool) :
    (s.followWheel level).path = { s.path with pins := { s.pins with wheel := level } } := rfl
@[simp] theorem State.followWheel_windows (level : Bool) : (s.followWheel level).windows = s.windows := rfl
@[simp] theorem State.followWheel_route (level : Bool) : (s.followWheel level).route = s.route := rfl
@[simp] theorem State.followWheel_seats (level : Bool) : (s.followWheel level).seats = s.seats := rfl
@[simp] theorem State.followWheel_notices (level : Bool) : (s.followWheel level).notices = s.notices := rfl
@[simp] theorem State.followWheel_store (level : Bool) : (s.followWheel level).store = s.store := rfl
@[simp] theorem State.followWheel_phase (level : Bool) : (s.followWheel level).phase = s.phase := rfl
@[simp] theorem State.followWheel_report (level : Bool) : (s.followWheel level).report = s.report := rfl
@[simp] theorem State.followWheel_reported (level : Bool) : (s.followWheel level).reported = s.reported := rfl

/-! `returnWheel`: what an edge finds (R28, log 25) -/

/-- The line at its old level, or not sampled yet, stands. -/
theorem State.returnWheel_of_ne (h : s.odo.wheelLevel ≠ some s.edgeLevel) : s.returnWheel = s := by
  simp [State.returnWheel, h]

/-- The line and the filter, or nothing. -/
theorem State.returnWheel_cases :
    s.returnWheel = s ∨ (s.odo.wheelLevel = some s.edgeLevel ∧ s.returnWheel = s.followWheel !s.edgeLevel) := by
  by_cases h : s.odo.wheelLevel = some s.edgeLevel
  · exact .inr ⟨h, by simp [State.returnWheel, h]⟩
  · exact .inl (s.returnWheel_of_ne h)

/-- In ACTIVE every edge after the first sampled level is one from the old level (R28, R41). -/
theorem State.wheelEdge_returnWheel (ha : s.active = true) (h : s.odo.wheelLevel ≠ none) :
    s.returnWheel.wheelEdge = true := by
  rcases s.returnWheel_cases with e | ⟨-, e⟩
  · rw [e]
    have hne : s.odo.wheelLevel ≠ some s.edgeLevel := by
      intro hc
      have : s.returnWheel.odo.wheelLevel = some (!s.edgeLevel) := by simp [State.returnWheel, hc]
      rw [e, hc] at this
      cases hl : s.edgeLevel <;> simp [hl] at this
    cases hw : s.odo.wheelLevel with
    | none => exact absurd hw h
    | some b =>
      rw [hw] at hne
      cases hb : b <;> cases hl : s.edgeLevel <;> simp_all [State.wheelEdge]
  · rw [e]
    show (s.active && decide (some (!s.edgeLevel) = some (!s.edgeLevel))) = true
    simp [ha]

/-- A pulse and a rejected edge come to the same with or without the return before them. -/
@[simp] theorem State.takePulse_returnWheel : s.returnWheel.takePulse = s.takePulse := by
  rcases s.returnWheel_cases with e | ⟨-, e⟩ <;> rw [e] <;> rfl

@[simp] theorem State.rejectPulse_returnWheel : s.returnWheel.rejectPulse = s.rejectPulse := by
  rcases s.returnWheel_cases with e | ⟨-, e⟩ <;> rw [e] <;> rfl

/-- PULSE in ACTIVE with a level sampled is an accepted edge (R29). -/
theorem State.meetEdge_returnWheel (ha : s.active = true) (h : s.odo.wheelLevel ≠ none) :
    s.returnWheel.meetEdge = s.takePulse := by
  simp [State.meetEdge, s.wheelEdge_returnWheel ha h]

/-- PULSE_REJECTED in ACTIVE with a level sampled is a rejected edge (R28). -/
theorem State.meetFragment_returnWheel (ha : s.active = true) (h : s.odo.wheelLevel ≠ none) :
    s.returnWheel.meetFragment = s.rejectPulse := by
  simp [State.meetFragment, s.wheelEdge_returnWheel ha h]

end Sys2Proof.Machine
end

