-- ==== Sys2Proof/Laws/Reports.lean ====
section
/-! SUPPORT. What the Report Unit records when a cause is handed to it: factors, counters and the last bad record. -/

namespace Sys2Proof.Machine

variable (s : State)

theorem or_bit_of_has (x : BitVec 14) (n : Nat) (h : x.getLsbD n = true) : x ||| (1#14 <<< n) = x := by
  apply BitVec.eq_of_getLsbD_eq
  intro i hi
  simp only [BitVec.getLsbD_or, BitVec.getLsbD_shiftLeft, BitVec.getLsbD_one]
  by_cases hin : i = n
  · subst hin; simp [h]
  · cases hx : x.getLsbD i <;> simp
    omega

/-- Setting a factor adds its bit and records nothing else. -/
@[simp] theorem Report.setFactor_facts (r : Report) (f : Factor) : (r.setFactor f).facts = r.facts.withFactor f := by
  unfold Report.setFactor
  split
  · next h => simp [Report.withFactor, Report.facts, Factor.bit, or_bit_of_has r.factors f.num h]
  · rfl

/-- Raising a counter records nothing else. -/
@[simp] theorem Report.raise_facts (r : Report) (c : Counter) : (r.raise c).facts = r.facts.withCount c := by
  unfold Report.raise Report.withCount raised
  by_cases h : r.counters.getD c.num 0 < 65535
  · have h' : r.facts.counters.getD c.num 0 < 65535 := h
    rw [if_pos h, if_pos h']; rfl
  · have h' : ¬ r.facts.counters.getD c.num 0 < 65535 := h
    rw [if_neg h, if_neg h']

@[simp] theorem Report.cause2_facts (r : Report) (f : Factor) (c : Counter) :
    (r.cause2 f c).facts = (r.facts.withFactor f).withCount c := by
  simp [Report.cause2]

@[simp] theorem Report.bad_facts (r : Report) (why : Reason) (k : RecKind) (slot : Nat) :
    (r.bad why k slot).facts = r.facts.withBad why k slot := by
  have h := Report.cause2_facts r .badRecord .badRecord
  simp only [Report.bad, Report.withBad, ← h]
  rfl

@[simp] theorem State.onReport_reported (f : Report → Report) : (s.onReport f).reported = (f s.report).facts := rfl

@[simp] theorem State.handCause_reported (f : Factor) (c : Counter) :
    (s.handCause f c).reported = (s.reported.withFactor f).withCount c := Report.cause2_facts ..

@[simp] theorem State.badRecord_reported (why : Reason) (k : RecKind) (slot : Nat) :
    (s.badRecord why k slot).reported = s.reported.withBad why k slot := Report.bad_facts ..

@[simp] theorem State.refuseMessage_reported (why : Reason) (slot : Nat) :
    (s.refuseMessage why slot).reported = s.reported.withBad why .message slot := by
  simp [State.refuseMessage]

@[simp] theorem State.comparePosition_reported : s.comparePosition.reported = s.reported := by
  unfold State.comparePosition; split <;> rfl

@[simp] theorem State.handDelayChange_reported : s.handDelayChange.reported = s.reported := by
  simp [State.handDelayChange]

@[simp] theorem State.handClockChange_reported : s.handClockChange.reported = s.reported := by
  simp [State.handClockChange]

@[simp] theorem State.handRouteChange_reported (b : Bool) : (s.handRouteChange b).reported = s.reported := by
  unfold State.handRouteChange; split <;> simp

@[simp] theorem State.handTargetChange_reported : s.handTargetChange.reported = s.reported := by
  simp [State.handTargetChange]

/-- STAGE_CHANGE sets the factor STAGE and records nothing else. -/
@[simp] theorem State.handStage_reported (old : Progress) : (s.handStage old).reported = s.reported.withFactor .stage := by
  simp only [State.handStage, State.stagePhase_reported, State.comparePosition_reported, State.onReport_reported,
    Report.setFactor_facts]
  exact congrArg (fun r : Report => r.withFactor .stage) (by simp : ((s.stageOdo.stageSeats old).updateAuto).reported = s.reported)

@[simp] theorem State.handStopMissed_reported :
    s.handStopMissed.reported = (s.reported.withFactor .stopMissed).withCount .stopMissed := by
  simp [State.handStopMissed]

@[simp] theorem State.handUnplannedStop_reported :
    s.handUnplannedStop.reported = (s.reported.withFactor .unplannedStop).withCount .unplannedStop := by
  simp [State.handUnplannedStop]

@[simp] theorem State.enterStage_reported (p : Progress) :
    (s.enterStage p).reported = s.reported.withFactor .stage := by
  simp [State.enterStage]

/-- The Report Unit's copies follow the odometer and nothing else of the record changes. -/
@[simp] theorem State.copyPosition_reported :
    s.copyPosition.reported
      = { s.reported with posM := s.odo.position / 1000, repSpeed := s.odo.repSpeed, settled := s.odo.settled } := by
  simp [State.copyPosition, State.onReport_reported]; rfl

@[simp] theorem State.handWindowEnd_reported :
    s.handWindowEnd.reported
      = { s.reported with posM := s.odo.position / 1000, repSpeed := s.odo.repSpeed, settled := s.odo.settled } := by
  simp [State.handWindowEnd]

@[simp] theorem State.handPositionSet_reported :
    s.handPositionSet.reported
      = { s.reported with posM := s.odo.position / 1000, repSpeed := s.odo.repSpeed, settled := s.odo.settled } := by
  simp [State.handPositionSet]

/-- What a stop reached leaves on the Arrival line, by its state (R170). -/
theorem State.recordArrival_reported (e : StopEntry) :
    (s.recordArrival e).reported =
      s.reported.withArrival s.router.map.report.len e s.route.clock (s.odo.position / 1000) := by
  unfold State.recordArrival Report.withArrival
  split
  · rfl
  · by_cases h : s.report.arrival.fresh = true
    · have h' : s.reported.arrival.fresh = true := h
      rw [if_pos h, if_pos h']; simp
    · have h' : ¬ s.reported.arrival.fresh = true := h
      rw [if_neg h, if_neg h']; rfl

/-- What STOP_REACHED leaves in the Report Unit's record (R160, R170). -/
theorem State.handStopReached_reported (slot : Nat) (e : StopEntry) (h : s.route.entry slot = some e) :
    (s.handStopReached slot).reported =
      (s.reported.withFactor .stopReached).withArrival s.router.map.report.len e s.route.clock (s.odo.position / 1000) := by
  have h' : ((s.fullResolution.onReport (·.setFactor .stopReached))).route.entry slot = some e := h
  simp only [State.handStopReached, h', State.setWindows_reported, State.comparePosition_reported,
    State.recordArrival_reported, State.onReport_reported, Report.setFactor_facts]
  rfl

/-! ### What the reads and transfers of the coach computer leave in the record -/

@[simp] theorem Report.coachTransfer_facts (r : Report) (release : Bool) :
    (r.coachTransfer release).facts = r.facts.coachTransfer release := by
  unfold Report.coachTransfer
  simp only [Report.facts_latch]
  (repeat' split) <;> rfl

/-- An answer to the coach computer hands COACH_TRANSFER (R131). -/
@[simp] theorem State.answerCoach_reported (lock : Bool) (a : Answer) (release : Bool) :
    (s.answerCoach lock a release).reported = s.reported.coachTransfer release :=
  Report.coachTransfer_facts ..

/-- A read of a REPORT line hands REPORT_READ while the apertures are in force (R131, R136). -/
theorem State.handReportRead_reported (i first count : Nat) :
    (s.handReportRead (some i) first count).reported =
      (if s.mapped then s.report.readLine i first count else s.report).facts := by
  unfold State.handReportRead
  dsimp only
  split <;> rfl

@[simp] theorem State.handReportRead_none (first count : Nat) : s.handReportRead none first count = s := rfl

@[simp] theorem State.handReportRead_path (i : Option Nat) (first count : Nat) :
    (s.handReportRead i first count).path = s.path := by
  unfold State.handReportRead
  (repeat' split) <;> rfl

@[simp] theorem State.handReportRead_windows (i : Option Nat) (first count : Nat) :
    (s.handReportRead i first count).windows = s.windows := by
  unfold State.handReportRead
  (repeat' split) <;> rfl

@[simp] theorem State.handReportRead_journey (i : Option Nat) (first count : Nat) :
    (s.handReportRead i first count).journey = s.journey := by
  unfold State.handReportRead
  (repeat' split) <;> rfl

@[simp] theorem State.handReportRead_store (i : Option Nat) (first count : Nat) :
    (s.handReportRead i first count).store = s.store := by
  unfold State.handReportRead
  (repeat' split) <;> rfl

/-- The record of reports says which factors are set. -/
theorem State.has_eq (f : Factor) : s.report.has f = s.reported.has f := rfl

theorem Report.has_withFactor (r : Report) (f : Factor) : (r.withFactor f).has f = true := by
  cases f <;> simp [Report.withFactor, Report.has, Factor.bit, Factor.num]

theorem Report.has_withFactor_of (r : Report) (f g : Factor) (h : r.has f = true) : (r.withFactor g).has f = true := by
  simp only [Report.has] at h
  simp [Report.withFactor, Report.has, h]

@[simp] theorem Report.has_withCount (r : Report) (f : Factor) (c : Counter) : (r.withCount c).has f = r.has f := rfl

end Sys2Proof.Machine
end

