-- ==== Sys2Proof/Laws/Journey.lean ====
section
/-! SUPPORT. The journey's larger operations: what a change of progress state, a reselection, a departure and a window end do to
the route, the figures of the odometer and the seats. -/

namespace Sys2Proof.Machine

variable (s : State)

@[simp] theorem State.stageOdo_figures : s.stageOdo.odo.figures = s.odo.figures := by
  unfold State.stageOdo State.invalidate; (repeat' split) <;> rfl

@[simp] theorem State.handStage_figures (old : Progress) : (s.handStage old).odo.figures = s.odo.figures := by
  simp [State.handStage]

@[simp] theorem State.enterStage_figures (p : Progress) : (s.enterStage p).odo.figures = s.odo.figures := by
  simp [State.enterStage]

@[simp] theorem State.rederive_figures : s.rederive.odo.figures = s.odo.figures := by
  unfold State.rederive; split <;> simp

@[simp] theorem State.reselect_figures (old : Option Nat) (b : Bool) : (s.reselect old b).odo.figures = s.odo.figures := by
  unfold State.reselect; dsimp only; (repeat' split) <;> simp

@[simp] theorem State.departNow_figures : s.departNow.odo.figures = s.odo.figures := by
  simp [State.departNow]

@[simp] theorem State.leavePreJourney_figures : s.leavePreJourney.odo.figures = s.odo.figures := by
  unfold State.leavePreJourney; dsimp only; (repeat' split) <;> simp

@[simp] theorem State.moveForward_figures : s.moveForward.odo.figures = s.odo.figures := by
  unfold State.moveForward; split <;> simp

@[simp] theorem State.routeWindowEnd_figures : s.routeWindowEnd.odo.figures = s.odo.figures := by
  unfold State.routeWindowEnd; dsimp only; (repeat' split) <;> simp

@[simp] theorem State.haltNow_figures : s.haltNow.odo.figures = s.odo.figures := by
  simp [State.haltNow]

/-- Entering a progress state changes the progress state alone in the Route Tracker. -/
@[simp] theorem State.enterStage_route (p : Progress) : (s.enterStage p).route = { s.route with progress := p } := by
  simp [State.enterStage]

@[simp] theorem State.haltNow_route : s.haltNow.route = { s.route with progress := .halted } := by
  simp [State.haltNow]

@[simp] theorem State.missTarget_plan (t : Nat) : (s.missTarget t).route.plan = s.route.plan := by
  simp [State.missTarget]
  exact Route.plan_mark s.route t .missed

@[simp] theorem State.missTarget_settings (t : Nat) : (s.missTarget t).route.settings = s.route.settings := by
  simp [State.missTarget]
  rfl

@[simp] theorem State.missAll_plan (n : Nat) : (s.missAll n).route.plan = s.route.plan := by
  induction n generalizing s with
  | zero => rfl
  | succ n ih => unfold State.missAll; split <;> simp [ih]

@[simp] theorem State.missAll_settings (n : Nat) : (s.missAll n).route.settings = s.route.settings := by
  induction n generalizing s with
  | zero => rfl
  | succ n ih => unfold State.missAll; split <;> simp [ih]

@[simp] theorem State.routeWindowEnd_plan : s.routeWindowEnd.route.plan = s.route.plan := by
  unfold State.routeWindowEnd; dsimp only; (repeat' split) <;> simp

@[simp] theorem State.routeWindowEnd_settings : s.routeWindowEnd.route.settings = s.route.settings := by
  unfold State.routeWindowEnd; dsimp only; (repeat' split) <;> simp

/-- The re-derived state is never HALTED, STANDING, PRE_JOURNEY or NO_ROUTE (R17). -/
theorem State.derive_moving : s.derive.moving = true ∨ s.derive = .ended := by
  unfold State.derive; (repeat' split) <;> simp [Progress.moving]

theorem State.derive_eq_ended : s.derive = .ended ↔ s.remaining = none := by
  unfold State.derive
  split
  · next h => simp [h]
  · next h => simp [h]; (repeat' split) <;> simp

/-- Re-derivation enters the derived state. -/
@[simp] theorem State.rederive_route : s.rederive.route = { s.route with progress := s.derive } := by
  unfold State.rederive
  split
  · next h => rw [h]
  · simp

/-! What stands of the windows beside the banner's target. -/

@[simp] theorem State.settle_windows_rest : s.settle.windows.rest = s.windows.rest := by simp
@[simp] theorem State.recomputeBanner_windows_rest : (s.recomputeBanner).windows.rest = s.windows.rest := rfl
@[simp] theorem State.bannerChanged_windows_rest : (s.bannerChanged).windows.rest = s.windows.rest := by
  unfold State.bannerChanged; dsimp only; simp
@[simp] theorem State.startShowing_windows_rest (e : Notice) : (s.startShowing e).windows.rest = s.windows.rest := by
  unfold State.startShowing; dsimp only; (repeat' split) <;> simp
@[simp] theorem State.showNothing_windows_rest : (s.showNothing).windows.rest = s.windows.rest := by
  unfold State.showNothing; dsimp only; simp
@[simp] theorem State.selectNotice_windows_rest (was : Option Nat) (had : Bool) : (s.selectNotice was had).windows.rest = s.windows.rest := by
  unfold State.selectNotice; dsimp only; (repeat' split) <;> simp
@[simp] theorem State.rotationCheck_windows_rest (had : Bool) : (s.rotationCheck had).windows.rest = s.windows.rest := by
  unfold State.rotationCheck; (repeat' split) <;> simp
@[simp] theorem State.removeNotice_windows_rest (id : Nat) : (s.removeNotice id).windows.rest = s.windows.rest := by
  unfold State.removeNotice; simp
@[simp] theorem State.replaceNotice_windows_rest (x : Notice) : (s.replaceNotice x).windows.rest = s.windows.rest := by
  unfold State.replaceNotice; dsimp only; (repeat' split) <;> simp
@[simp] theorem State.appendNotice_windows_rest (x : Notice) : (s.appendNotice x).windows.rest = s.windows.rest := by
  unfold State.appendNotice; simp
@[simp] theorem State.removeAllNotices_windows_rest (ids : List Nat) : (s.removeAllNotices ids).windows.rest = s.windows.rest := by
  unfold State.removeAllNotices; induction ids generalizing s with
  | nil => rfl
  | cons a l ih => simp [ih]
@[simp] theorem State.updateAuto_windows_rest : (s.updateAuto).windows.rest = s.windows.rest := by
  unfold State.updateAuto; (repeat' split) <;> simp
@[simp] theorem State.refreshAuto_windows_rest : (s.refreshAuto).windows.rest = s.windows.rest := by
  unfold State.refreshAuto; dsimp only; (repeat' split) <;> simp
@[simp] theorem State.handStage_windows_rest (old : Progress) : (s.handStage old).windows.rest = s.windows.rest := by
  unfold State.handStage; dsimp only; simp
@[simp] theorem State.handDeparture_windows_rest (slot : Nat) : (s.handDeparture slot).windows.rest = s.windows.rest := by
  unfold State.handDeparture; dsimp only; simp
@[simp] theorem State.targetNotices_windows_rest : (s.targetNotices).windows.rest = s.windows.rest := by
  unfold State.targetNotices; dsimp only; (repeat' split) <;> simp
@[simp] theorem State.handTargetChange_windows_rest : (s.handTargetChange).windows.rest = s.windows.rest := by
  unfold State.handTargetChange; simp
@[simp] theorem State.enterStage_windows_rest (p : Progress) : (s.enterStage p).windows.rest = s.windows.rest := by
  unfold State.enterStage; dsimp only; simp
@[simp] theorem State.rederive_windows_rest : (s.rederive).windows.rest = s.windows.rest := by
  unfold State.rederive; (repeat' split) <;> simp
@[simp] theorem State.reselect_windows_rest (old : Option Nat) (replaced : Bool) : (s.reselect old replaced).windows.rest = s.windows.rest := by
  unfold State.reselect; dsimp only; (repeat' split) <;> simp
@[simp] theorem State.leaveCurrent_windows_rest : (s.leaveCurrent).windows.rest = s.windows.rest := by
  unfold State.leaveCurrent; (repeat' split) <;> simp
@[simp] theorem State.departNow_windows_rest : (s.departNow).windows.rest = s.windows.rest := by
  unfold State.departNow; dsimp only; (repeat' split) <;> simp
@[simp] theorem State.leavePreJourney_windows_rest : (s.leavePreJourney).windows.rest = s.windows.rest := by
  unfold State.leavePreJourney; dsimp only; (repeat' split) <;> simp
@[simp] theorem State.missTarget_windows_rest (t : Nat) : (s.missTarget t).windows.rest = s.windows.rest := by
  unfold State.missTarget; dsimp only; simp
@[simp] theorem State.missAll_windows_rest (n : Nat) : (s.missAll n).windows.rest = s.windows.rest := by
  induction n generalizing s with
  | zero => rfl
  | succ n ih => unfold State.missAll; split <;> simp [ih]
@[simp] theorem State.moveForward_windows_rest : (s.moveForward).windows.rest = s.windows.rest := by
  unfold State.moveForward; (repeat' split) <;> simp
@[simp] theorem State.routeWindowEnd_windows_rest : (s.routeWindowEnd).windows.rest = s.windows.rest := by
  unfold State.routeWindowEnd; dsimp only; (repeat' split) <;> simp
@[simp] theorem State.haltNow_windows_rest : (s.haltNow).windows.rest = s.windows.rest := by
  unfold State.haltNow; simp

end Sys2Proof.Machine
end

