-- ==== Sys2Proof/Laws/Notices.lean ====
section
/-! SUPPORT. The Notice Queue through a rotation: selections and checks change who is SHOWN and nothing else of the entries
(R76 to R78), and which entry they leave SHOWN. -/

namespace Sys2Proof.Machine

variable (s : State)

/-! ### Contents: what every selection and check keeps -/

theorem content_showOnly (id : Option Nat) (q : List Notice) : (showOnly id q).map Notice.content = q.map Notice.content := by
  simp [showOnly, Notice.content, Function.comp_def]

/-- What depends on the contents alone depends on the queue up to the SHOWN marks. -/
theorem map_of_content {α : Type} {q q' : List Notice} (f : Notice → α) (hf : ∀ e, f e.content = f e)
    (h : q.map Notice.content = q'.map Notice.content) : q.map f = q'.map f := by
  have := congrArg (List.map f) h
  simpa [List.map_map, Function.comp_def, hf] using this

theorem State.bannerChanged_queue : s.bannerChanged.notices.queue = s.notices.queue := by simp [State.bannerChanged]

theorem State.startShowing_queue (e : Notice) :
    (s.startShowing e).notices.queue = showOnly (some e.id) s.notices.queue := by
  simp only [State.startShowing, State.bannerChanged_queue, State.setNotices_notices]
  split
  · unfold Notices.startChime; split <;> rfl
  · rfl

theorem State.showNothing_queue : s.showNothing.notices.queue = showOnly none s.notices.queue := by
  simp [State.showNothing, State.bannerChanged_queue]

theorem State.selectNotice_content (w : Option Nat) (h : Bool) :
    (s.selectNotice w h).notices.queue.map Notice.content = s.notices.queue.map Notice.content := by
  unfold State.selectNotice
  (repeat' split) <;> simp [State.showNothing_queue, State.startShowing_queue, content_showOnly]

theorem State.rotationCheck_content (h : Bool) :
    (s.rotationCheck h).notices.queue.map Notice.content = s.notices.queue.map Notice.content := by
  unfold State.rotationCheck
  (repeat' split) <;> simp [State.showNothing_queue, content_showOnly, State.selectNotice_content]

/-- A removal leaves the other entries, in their order (R71). -/
theorem State.removeNotice_content (id : Nat) :
    (s.removeNotice id).notices.queue.map Notice.content
      = (s.notices.queue.filter fun e => decide (e.id ≠ id)).map Notice.content :=
  State.rotationCheck_content _ _

/-- An entry added joins the tail (R69). -/
theorem State.appendNotice_content (x : Notice) :
    (s.appendNotice x).notices.queue.map Notice.content = s.notices.queue.map Notice.content ++ [x.content] := by
  simp [State.appendNotice, State.rotationCheck_content, Notices.append, Notice.content]

/-- A replacement takes the place of the entry with its id (R70). -/
theorem State.replaceNotice_content (x : Notice) :
    (s.replaceNotice x).notices.queue.map Notice.content
      = s.notices.queue.map fun e => if e.id = x.id then x.content else e.content := by
  have h : ((s.setNotices (s.notices.replace x)).notices.queue).map Notice.content
      = s.notices.queue.map fun e => if e.id = x.id then x.content else e.content := by
    simp only [State.setNotices_notices, Notices.replace, List.map_map]
    apply List.map_congr_left
    intro e _
    simp only [Function.comp_def]
    split <;> simp [Notice.content]
  unfold State.replaceNotice
  dsimp only
  rw [State.rotationCheck_content]
  (repeat' split) <;> simp only [State.startShowing_queue, content_showOnly, h]

/-- Filtering the entries by what a rotation keeps. -/
theorem content_filter {q q' : List Notice} (p : Notice → Bool) (hp : ∀ e, p e.content = p e)
    (h : q.map Notice.content = q'.map Notice.content) :
    (q.filter p).map Notice.content = (q'.filter p).map Notice.content := by
  have key : ∀ l : List Notice, (l.filter p).map Notice.content = (l.map Notice.content).filter p := by
    intro l
    induction l with
    | nil => rfl
    | cons a l ih => simp only [List.map_cons, List.filter_cons, hp]; split <;> simp [ih]
  rw [key, key, h]

/-- The removals of a departure leave the other entries, in their order (R72). -/
theorem State.removeAllNotices_content (ids : List Nat) :
    (s.removeAllNotices ids).notices.queue.map Notice.content
      = (s.notices.queue.filter fun e => decide (e.id ∉ ids)).map Notice.content := by
  unfold State.removeAllNotices
  induction ids generalizing s with
  | nil =>
    have h : ∀ q : List Notice, q.filter (fun e => decide (e.id ∉ ([] : List Nat))) = q := fun q =>
      List.filter_eq_self.mpr fun _ _ => by simp
    simp only [List.foldl_nil, h]
  | cons a l ih =>
    rw [List.foldl_cons, ih, content_filter (fun e => decide (e.id ∉ l)) (fun _ => rfl) (s.removeNotice_content a),
      List.filter_filter]
    congr 1
    apply List.filter_congr
    intro e _
    simp [Bool.and_comm]

/-- STAGE_CHANGE leaves the coach computer's notices, in their order (R74). -/
theorem State.updateAuto_content (h : ∀ e ∈ s.notices.queue, (e.cls = .auto ↔ e.id = 255)) :
    (s.updateAuto.notices.queue.filter Notice.fromCoach).map Notice.content
      = (s.notices.queue.filter Notice.fromCoach).map Notice.content := by
  have hf : ∀ e : Notice, Notice.fromCoach e.content = Notice.fromCoach e := fun _ => rfl
  unfold State.updateAuto
  split
  · exact content_filter _ hf (State.rotationCheck_content ..)
  · exact content_filter _ hf (State.rotationCheck_content ..)
  · rw [content_filter _ hf (State.removeNotice_content ..), List.filter_filter]
    congr 1
    apply List.filter_congr
    intro e he
    have := h e he
    by_cases hc : e.cls = .auto
    · simp [Notice.fromCoach, hc]
    · have h255 : e.id ≠ 255 := fun h' => hc (this.mpr h')
      simp [Notice.fromCoach, autoId, hc, h255]
  · rename_i st slot _ _
    rw [show ((s.appendNotice (s.autoEntry st slot)).notices.queue.filter Notice.fromCoach).map Notice.content = _ from
      content_filter (q' := s.notices.queue ++ [s.autoEntry st slot]) _ hf (by rw [State.appendNotice_content]; simp)]
    simp [List.filter_append, Notice.fromCoach, State.autoEntry]
  · split
    · exact content_filter _ hf (State.rotationCheck_content ..)
    · rename_i st slot _ _ _ _
      rw [show ((s.replaceNotice (s.autoEntry st slot)).notices.queue.filter Notice.fromCoach).map Notice.content = _ from
        content_filter (q' := s.notices.queue.map fun e => if e.id = 255 then s.autoEntry st slot else e) _ hf (by
          rw [State.replaceNotice_content, List.map_map]
          apply List.map_congr_left
          intro e _
          simp only [Function.comp_def]
          by_cases he : e.id = 255
          · rw [if_pos (by rw [he]; rfl), if_pos he]
          · rw [if_neg (by simpa [State.autoEntry, autoId] using he), if_neg he])]
      generalize s.notices.queue = q at h
      induction q with
      | nil => rfl
      | cons a l ih =>
        have ha := h a (by simp)
        have ih' := ih fun e he => h e (by simp [he])
        simp only [List.map_cons, List.filter_cons]
        by_cases hc : a.id = 255
        · have hca : a.cls = .auto := ha.mpr hc
          simp only [hc, if_true]
          have h1 : (s.autoEntry st slot).fromCoach = false := rfl
          have h2 : a.fromCoach = false := by simp [Notice.fromCoach, hca]
          simp [h1, h2, ih']
        · simp only [hc, if_false]
          split <;> simp [ih']

/-! ### Which entry a selection leaves SHOWN -/

theorem find_append_left {α : Type} (p : α → Bool) (a b c : List α) (h : b.find? p = c.find? p) :
    (a ++ b).find? p = (a ++ c).find? p := by
  rw [List.find?_append, List.find?_append, h]

/-- The selection looks through the queue in the order of R77. -/
theorem Notices.next_selected (n : Notices) : n.next = selected n.mark n.queue := by
  unfold Notices.next selected Notices.searchOrder rotation
  cases n.mark with
  | none => rfl
  | some id =>
    dsimp only
    generalize topPriority n.queue = top
    have key : ∀ q : List Notice, (afterId id q ++ q).find? (fun e => decide (e.priority = top)) =
        ((q.dropWhile fun e => decide (e.id ≠ id)).drop 1 ++ (q.takeWhile fun e => decide (e.id ≠ id))
          ++ q.filter fun e => decide (e.id = id)).find? (fun e => decide (e.priority = top)) := by
      intro q
      have hs : ∀ q : List Notice,
          (afterId id q = (q.dropWhile fun e => decide (e.id ≠ id)).drop 1)
          ∧ q.find? (fun e => decide (e.priority = top)) =
            ((q.takeWhile fun e => decide (e.id ≠ id)) ++ ((q.dropWhile fun e => decide (e.id ≠ id)).take 1
              ++ (q.dropWhile fun e => decide (e.id ≠ id)).drop 1)).find? (fun e => decide (e.priority = top)) := by
        intro q
        constructor
        · induction q with
          | nil => rfl
          | cons a l ih => by_cases h : a.id = id <;> simp [afterId, h, ih]
        · rw [List.take_append_drop, List.takeWhile_append_dropWhile]
      obtain ⟨h1, h2⟩ := hs q
      have h3 : (q.dropWhile fun e => decide (e.id ≠ id)).take 1 = (q.filter fun e => decide (e.id = id)).take 1 := by
        clear h1 h2
        induction q with
        | nil => rfl
        | cons a l ih =>
          by_cases h : a.id = id
          · simp [h]
          · simpa [h] using ih
      have h4 : ∀ x ∈ (q.filter fun e => decide (e.id = id)), x ∈ (q.dropWhile fun e => decide (e.id ≠ id)) := by
        intro x hx
        clear h1 h2 h3
        induction q with
        | nil => exact hx
        | cons a l ih =>
          by_cases h : a.id = id
          · simp only [List.dropWhile_cons, h, ne_eq, not_true_eq_false, decide_false, Bool.false_eq_true, if_false]
            exact (List.mem_filter.mp hx).1
          · simp only [List.filter_cons, h, decide_false, Bool.false_eq_true, if_false] at hx
            simpa [List.dropWhile_cons, h] using ih hx
      rw [h1]
      generalize hd : (q.dropWhile fun e => decide (e.id ≠ id)) = d at *
      generalize ht : (q.takeWhile fun e => decide (e.id ≠ id)) = t at *
      generalize hf : (q.filter fun e => decide (e.id = id)) = f at *
      rw [List.append_assoc]
      cases ha : (d.drop 1).find? (fun e => decide (e.priority = top)) with
      | some x => rw [List.find?_append, List.find?_append, ha]; rfl
      | none =>
        rw [List.find?_append, List.find?_append, ha, Option.none_or, Option.none_or, h2]
        apply find_append_left
        rw [List.find?_append, ha, Option.or_none, h3]
        cases f with
        | nil => rfl
        | cons y r =>
          simp only [List.take_succ_cons, List.take_zero, List.find?_cons, List.find?_nil]
          split
          · rfl
          · next hy =>
            symm
            rw [List.find?_eq_none]
            intro x hx
            have hxd := h4 x (by simp [hx])
            cases d with
            | nil => cases hxd
            | cons z e =>
              have hzy : z = y := by simpa using h3
              rcases List.mem_cons.mp hxd with h | h
              · rw [h, hzy, hy]; simp
              · exact List.find?_eq_none.mp ha x (by simpa using h)
    exact key n.queue

theorem Notices.next_eq (n : Notices) : n.next.map (·.id) = selectedId n.mark n.queue := by
  rw [n.next_selected]; rfl

/-- The entry of a selection is one of the queue. -/
theorem Notices.next_mem {n : Notices} {e : Notice} (h : n.next = some e) : e ∈ n.queue := by
  have h' := List.mem_of_find?_eq_some h
  unfold Notices.searchOrder at h'
  split at h'
  · exact h'
  · rcases List.mem_append.mp h' with h' | h'
    · rename_i id _ _
      have : ∀ q : List Notice, e ∈ afterId id q → e ∈ q := by
        intro q
        induction q with
        | nil => exact fun h => h
        | cons a l ih =>
          unfold afterId
          split
          · exact fun h => List.mem_cons_of_mem _ h
          · exact fun h => List.mem_cons_of_mem _ (ih h)
      exact this _ h'
    · exact h'

/-- With the entry of an id alone SHOWN, that entry is the SHOWN one. -/
theorem find_showOnly (id : Nat) (q : List Notice) (h : ∃ e ∈ q, e.id = id) :
    ((showOnly (some id) q).find? (·.shown)).map (·.id) = some id := by
  induction q with
  | nil => obtain ⟨_, h, _⟩ := h; cases h
  | cons a l ih =>
    by_cases ha : a.id = id
    · simp [showOnly, ha]
    · have : ∃ e ∈ l, e.id = id := by
        obtain ⟨e, he, hid⟩ := h
        rcases List.mem_cons.mp he with rfl | he
        · exact absurd hid ha
        · exact ⟨e, he, hid⟩
      simpa [showOnly, ha] using ih this

theorem find_showNone (q : List Notice) : (showOnly none q).find? (·.shown) = none := by
  rw [List.find?_eq_none]; simp [showOnly]

/-- A selection leaves SHOWN the entry that R77 names; `was` is the SHOWN one, whose showing may continue. -/
theorem State.selectNotice_shown (was : Option Nat)
    (hw : ∀ id, was = some id → s.notices.shownEntry.map (·.id) = some id) :
    (s.selectNotice was true).notices.shownEntry.map (·.id) = selectedId s.notices.mark s.notices.queue := by
  rw [← Notices.next_eq]
  unfold State.selectNotice
  split
  · next h => simp [Notices.shownEntry, State.showNothing_queue, find_showNone, h]
  · next e h =>
    split
    · next hwas => simpa [h, Notices.shownEntry] using hw e.id hwas.symm
    · simp only [Notices.shownEntry, State.startShowing_queue, h, Option.map_some]
      exact find_showOnly _ _ ⟨e, Notices.next_mem h, rfl⟩

/-- The mark after an entry has left (R67). -/
theorem Notices.drop_mark (n : Notices) (before after : List Notice) (e : Notice) (hq : n.queue = before ++ e :: after)
    (hu : (n.queue.map (·.id)).Nodup) : (n.drop e.id).mark = markWithout n.mark before e := by
  unfold Notices.drop markWithout
  dsimp only
  split
  · rw [hq]
    rw [hq] at hu
    have key : ∀ (b : List Notice) (prev : Option Nat), (∀ x ∈ b, x.id ≠ e.id) →
        idBefore e.id prev (b ++ e :: after) = (b.getLast?.map (·.id)).or prev := by
      intro b
      induction b with
      | nil => intro prev _; simp [idBefore]
      | cons a l ih =>
        intro prev hb
        have ha := hb a (by simp)
        simp only [List.cons_append, idBefore, if_neg ha]
        rw [ih (some a.id) fun x hx => hb x (by simp [hx])]
        cases l with
        | nil => simp
        | cons c r =>
          have : ((c :: r).getLast?).isSome := by simp
          obtain ⟨z, hz⟩ := Option.isSome_iff_exists.mp this
          simp [List.getLast?_cons_cons, hz]
    rw [key before none]
    · simp
    · intro x hx hid
      simp only [List.map_append, List.map_cons, List.nodup_append, List.nodup_cons] at hu
      exact hu.2.2 x.id (List.mem_map_of_mem hx) e.id (by simp) hid
  · rfl

/-- The queue after an entry has left. -/
theorem Notices.drop_queue (n : Notices) (before after : List Notice) (e : Notice) (hq : n.queue = before ++ e :: after)
    (hu : (n.queue.map (·.id)).Nodup) : (n.drop e.id).queue = before ++ after := by
  have h1 : ∀ x ∈ before, x.id ≠ e.id := by
    intro x hx hid
    rw [hq] at hu
    simp only [List.map_append, List.map_cons, List.nodup_append, List.nodup_cons] at hu
    exact hu.2.2 x.id (List.mem_map_of_mem hx) e.id (by simp) hid
  have h2 : ∀ x ∈ after, x.id ≠ e.id := by
    intro x hx hid
    rw [hq] at hu
    simp only [List.map_append, List.map_cons, List.nodup_append, List.nodup_cons] at hu
    exact hu.2.1.1 (hid ▸ List.mem_map_of_mem hx)
  simp only [Notices.drop, hq, List.filter_append, List.filter_cons, ne_eq, not_true_eq_false, decide_false,
    Bool.false_eq_true, if_false]
  rw [List.filter_eq_self.mpr fun x hx => by simpa using h1 x hx,
    List.filter_eq_self.mpr fun x hx => by simpa using h2 x hx]

end Sys2Proof.Machine
end

