-- ==== Sys2Proof/Laws/Follow.lean ====
section
/-! SUPPORT. What the blocks beside the Route Tracker make of its events: the AUTO entry and the coach computer's entries of the
Notice Queue (R73 to R75), the Phase Generator (R117) and the Reservation Pool (R56). -/

namespace Sys2Proof.Machine

variable (s : State)

/-! ### What the entries' contents decide -/

/-- The queue's contents are those of another state. -/
def State.SameNotices (s t : State) : Prop := t.notices.queue.map Notice.content = s.notices.queue.map Notice.content

theorem State.SameNotices.coach {s t : State} (h : s.SameNotices t) : t.coachNotices = s.coachNotices :=
  content_filter _ (fun _ => rfl) h

theorem find_content (p : Notice → Bool) (hp : ∀ e, p e.content = p e) (q : List Notice) :
    (q.find? p).map Notice.content = (q.map Notice.content).find? p := by
  induction q with
  | nil => rfl
  | cons a l ih => simp only [List.map_cons, List.find?_cons, hp]; split <;> simp [ih]

theorem State.autoNow_eq : s.autoNow = (s.notices.queue.map Notice.content).find? fun e => decide (e.id = 255) :=
  find_content _ (fun _ => rfl) _

theorem State.SameNotices.auto {s t : State} (h : s.SameNotices t) : t.autoNow = s.autoNow := by
  rw [State.autoNow_eq, State.autoNow_eq, h]

/-- The AUTO class and the id 255 go together in the queue (R66). -/
def State.Autos (s : State) : Prop := ∀ e ∈ s.notices.queue, (e.cls = .auto ↔ e.id = 255)

theorem State.autos_content : s.Autos ↔ ∀ e ∈ s.notices.queue.map Notice.content, (e.cls = .auto ↔ e.id = 255) := by
  simp [State.Autos, Notice.content]

theorem State.SameNotices.autos {s t : State} (h : s.SameNotices t) : t.Autos ↔ s.Autos := by
  rw [State.autos_content, State.autos_content, h]

/-! ### The AUTO entry's content -/

theorem State.autoEntry_eq (st : Stage) (slot : Nat) : s.autoEntry st slot = s.autoMade st slot := by
  cases st <;> rfl

/-- The AUTO content depends on the text bases and the profile alone. -/
theorem State.autoMade_congr {s t : State} (hb : ∀ i, (t.route.entry i).map (·.textBase) = (s.route.entry i).map (·.textBase))
    (hp : t.params = s.params) (st : Stage) (i : Nat) : t.autoMade st i = s.autoMade st i := by
  unfold State.autoMade; rw [hb, hp]

theorem State.autoAtTarget_congr {s t : State}
    (hb : ∀ i, (t.route.entry i).map (·.textBase) = (s.route.entry i).map (·.textBase)) (hp : t.params = s.params)
    (ht : t.route.target = s.route.target) (o : Option Notice) : t.autoAtTarget o = s.autoAtTarget o := by
  unfold State.autoAtTarget; rw [ht]; simp only [State.autoMade_congr hb hp]

theorem State.autoAtStage_congr {s t : State}
    (hb : ∀ i, (t.route.entry i).map (·.textBase) = (s.route.entry i).map (·.textBase)) (hp : t.params = s.params)
    (hg : t.route.progress = s.route.progress) (ht : t.route.target = s.route.target) (hc : t.route.current = s.route.current)
    (o : Option Notice) : t.autoAtStage o = s.autoAtStage o := by
  have : t.route.autoStage = s.route.autoStage := by unfold Route.autoStage; rw [hg, ht, hc]
  unfold State.autoAtStage; rw [this, hg]; simp only [State.autoMade_congr hb hp]

/-- The table of R74, as the Sequencer looks it up. -/
theorem State.autoAtStage_want (r : Option Notice) :
    s.autoAtStage r = match autoWant s.route.progress s.route.current s.route.target with
      | .keep => r
      | .remove => none
      | .want st i => if r.bind (·.auto) = some (st, i) then r else some (s.autoMade st i) := by
  unfold State.autoAtStage Route.autoStage
  cases s.route.progress <;> cases s.route.target <;> cases s.route.current <;> rfl

theorem State.byId_autoNow : s.autoNow = (s.notices.byId autoId).map Notice.content := rfl

/-- STAGE_CHANGE gives the AUTO entry the content of R73 and R74. -/
theorem State.updateAuto_auto : s.updateAuto.autoNow = s.autoAtStage s.autoNow := by
  rw [s.autoAtStage_want]
  unfold State.updateAuto
  cases hw : autoWant s.route.progress s.route.current s.route.target with
  | keep => exact State.SameNotices.auto (State.rotationCheck_content ..)
  | remove =>
    cases hb : s.notices.byId autoId with
    | none =>
      show (s.rotationCheck s.showing).autoNow = none
      rw [State.SameNotices.auto (s := s) (State.rotationCheck_content ..), s.byId_autoNow, hb]; rfl
    | some e =>
      show (s.removeNotice autoId).autoNow = none
      rw [State.autoNow_eq, State.removeNotice_content, List.find?_eq_none]
      intro x hx
      simp only [List.mem_map, List.mem_filter] at hx
      obtain ⟨y, ⟨_, hy⟩, rfl⟩ := hx
      have hy' : y.id ≠ 255 := of_decide_eq_true hy
      exact fun h => hy' (of_decide_eq_true h)
  | want st i =>
    cases hb : s.notices.byId autoId with
    | none =>
      have hn : s.autoNow = none := by rw [s.byId_autoNow, hb]; rfl
      show (s.appendNotice (s.autoEntry st i)).autoNow = _
      rw [State.autoNow_eq, State.appendNotice_content, List.find?_append, ← s.autoNow_eq, hn, s.autoEntry_eq]
      rfl
    | some e =>
      have hn : s.autoNow = some e.content := by rw [s.byId_autoNow, hb]; rfl
      have hbind : s.autoNow.bind (·.auto) = e.auto := by rw [hn]; rfl
      show (if e.auto = some (st, i) then s.rotationCheck s.showing else s.replaceNotice (s.autoEntry st i)).autoNow =
        if s.autoNow.bind (·.auto) = some (st, i) then s.autoNow else some (s.autoMade st i)
      rw [hbind]
      by_cases he : e.auto = some (st, i)
      all_goals simp only [he, if_true, if_false]
      · exact State.SameNotices.auto (State.rotationCheck_content ..)
      · rw [(s.replaceNotice _).autoNow_eq, State.replaceNotice_content, s.autoEntry_eq]
        have h : (s.notices.queue.find? fun e => decide (e.id = 255)) = some e := hb
        generalize s.notices.queue = q at h
        induction q with
        | nil => cases h
        | cons a l ih =>
          by_cases ha : a.id = 255
          · simp [ha, State.autoMade, Notice.content]
          · simp only [List.find?_cons, ha, decide_false] at h
            simp only [List.map_cons, List.find?_cons]
            rw [if_neg (by simpa [State.autoMade] using ha), show decide (a.content.id = 255) = false from
              decide_eq_false ha]
            exact ih h

/-- TARGET_CHANGE refreshes the AUTO entry as R75 says. -/
theorem State.refreshAuto_auto : s.refreshAuto.autoNow = s.autoAtTarget s.autoNow := by
  unfold State.refreshAuto
  cases hb : s.notices.byId autoId with
  | none =>
    have hn : s.autoNow = none := by rw [s.byId_autoNow, hb]; rfl
    exact hn.trans (by rw [hn]; rfl)
  | some e =>
    have hn : s.autoNow = some e.content := by rw [s.byId_autoNow, hb]; rfl
    cases ht : s.route.target with
    | none => exact hn.trans (by rw [hn]; unfold State.autoAtTarget; rw [ht])
    | some x =>
      rw [hn]
      unfold State.autoAtTarget
      rw [ht]
      show State.autoNow (match e.auto with
        | some (.standing, _) => s
        | none => s
        | some (st, _) => _) = (match e.auto with
        | some (.standing, _) => some e.content
        | some (st, _) => some { e.content with auto := some (st, x), text := (s.autoMade st x).text }
        | none => some e.content)
      have key : ∀ st, State.autoNow (State.rotationCheck (if e.shown = true then
            (s.setNotices (s.notices.replace { e with auto := some (st, x), text := s.autoText st x })).bannerChanged
          else s.setNotices (s.notices.replace { e with auto := some (st, x), text := s.autoText st x })) s.showing)
          = some { e.content with auto := some (st, x), text := (s.autoMade st x).text } := by
        intro st
        rw [State.SameNotices.auto (State.rotationCheck_content ..)]
        have h1 : ∀ v : State, State.SameNotices v (if e.shown = true then v.bannerChanged else v) := by
          intro v; split
          · simp [State.SameNotices, State.bannerChanged_queue]
          · rfl
        rw [State.SameNotices.auto (h1 _)]
        have h : (s.notices.queue.find? fun e => decide (e.id = 255)) = some e := hb
        have hid : e.id = 255 := by simpa using List.find?_some h
        have htx : (s.autoMade st x).text = s.autoText st x := by cases st <;> rfl
        rw [htx]
        unfold State.autoNow
        simp only [State.setNotices_notices, Notices.replace, hid]
        generalize s.notices.queue = q at h
        induction q with
        | nil => cases h
        | cons a l ih =>
          by_cases ha : a.id = 255
          · simp [ha, hid, Notice.content]
          · simp only [List.find?_cons, ha, decide_false] at h
            simp only [List.map_cons, List.find?_cons, ha, if_false, decide_false]
            exact ih h
      cases ha : e.auto with
      | none => exact hn
      | some p =>
        obtain ⟨st, i⟩ := p
        cases st with
        | standing => exact hn
        | departed => exact key _
        | approaching => exact key _
        | arriving => exact key _

/-! ### The coach computer's entries -/

theorem coach_replace (q : List Notice) (x : Notice) (hx : x.fromCoach = false)
    (h : ∀ e ∈ q, e.id = x.id → e.fromCoach = false) :
    ((q.map fun e => if e.id = x.id then { x with shown := e.shown } else e).filter Notice.fromCoach).map Notice.content
      = (q.filter Notice.fromCoach).map Notice.content := by
  induction q with
  | nil => rfl
  | cons a l ih =>
    have ih' := ih fun e he => h e (by simp [he])
    simp only [List.map_cons, List.filter_cons]
    by_cases ha : a.id = x.id
    · have h1 := h a (by simp) ha
      have h2 : Notice.fromCoach { x with shown := a.shown } = false := hx
      simp [ha, h1, h2, ih']
    · simp only [ha, if_false]; split <;> simp [ih']

/-- What the refresh of the AUTO entry can do to the queue. -/
theorem State.refreshAuto_cases : s.SameNotices s.refreshAuto
    ∨ ∃ e x, s.notices.byId autoId = some e ∧ x.id = 255 ∧ x.cls = e.cls
        ∧ s.refreshAuto.notices.queue.map Notice.content = (s.notices.replace x).queue.map Notice.content := by
  unfold State.refreshAuto
  split
  · rename_i e t hb ht
    have hid : e.id = 255 := by
      have h : (s.notices.queue.find? fun e => decide (e.id = 255)) = some e := hb
      simpa using List.find?_some h
    split
    · exact .inl rfl
    · exact .inl rfl
    · rename_i st _ _ _
      refine .inr ⟨e, { e with auto := some (st, t), text := s.autoText st t }, hb, hid, rfl, ?_⟩
      dsimp only
      rw [State.rotationCheck_content]
      split
      · rw [State.bannerChanged_queue]; rfl
      · rfl
  · exact .inl rfl

theorem State.refreshAuto_autos (h : s.Autos) : s.refreshAuto.Autos := by
  rcases s.refreshAuto_cases with hc | ⟨e, x, hb, hx, hcls, hc⟩
  · exact hc.autos.mpr h
  · rw [State.autos_content, hc, show (s.notices.replace x).queue = (s.setNotices (s.notices.replace x)).notices.queue from rfl,
      ← State.autos_content (s.setNotices (s.notices.replace x))]
    have hfe : (s.notices.queue.find? fun e => decide (e.id = 255)) = some e := hb
    have he := h e (List.mem_of_find?_eq_some hfe)
    have hid : e.id = 255 := by simpa using List.find?_some hfe
    intro y hy
    simp only [State.setNotices_notices, Notices.replace, List.mem_map] at hy
    obtain ⟨z, hz, rfl⟩ := hy
    split
    · show x.cls = _ ↔ x.id = _
      rw [hcls, hx]; simpa [hid] using he
    · exact h z hz

/-- TARGET_CHANGE leaves the coach computer's notices, in their order (R75). -/
theorem State.refreshAuto_coach (h : s.Autos) : s.refreshAuto.coachNotices = s.coachNotices := by
  rcases s.refreshAuto_cases with hc | ⟨e, x, hb, hx, hcls, hc⟩
  · exact hc.coach
  · have hfe : (s.notices.queue.find? fun e => decide (e.id = 255)) = some e := hb
    have he := h e (List.mem_of_find?_eq_some hfe)
    have hid : e.id = 255 := by simpa using List.find?_some hfe
    rw [State.SameNotices.coach (s := s.setNotices (s.notices.replace x)) hc]
    apply coach_replace
    · simp [Notice.fromCoach, hcls, he.mpr hid]
    · intro y hy hyx
      simp [Notice.fromCoach, (h y hy).mpr (hyx.trans hx)]

/-- STAGE_CHANGE leaves the coach computer's notices, in their order (R74). -/
theorem State.updateAuto_coach (h : s.Autos) : s.updateAuto.coachNotices = s.coachNotices := s.updateAuto_content h

theorem State.updateAuto_autos (h : s.Autos) : s.updateAuto.Autos := by
  unfold State.updateAuto
  split
  · exact (State.SameNotices.autos (State.rotationCheck_content ..)).mpr h
  · exact (State.SameNotices.autos (State.rotationCheck_content ..)).mpr h
  · rw [State.autos_content, State.removeNotice_content]
    intro e he
    simp only [List.mem_map, List.mem_filter] at he
    obtain ⟨y, ⟨hy, _⟩, rfl⟩ := he
    exact h y hy
  · rw [State.autos_content, State.appendNotice_content]
    intro e he
    rw [List.mem_append] at he
    rcases he with he | he
    · obtain ⟨y, hy, rfl⟩ := List.mem_map.mp he; exact h y hy
    · rw [List.mem_singleton] at he; subst he; simp [State.autoEntry, Notice.content, autoId]
  · split
    · exact (State.SameNotices.autos (State.rotationCheck_content ..)).mpr h
    · rw [State.autos_content, State.replaceNotice_content]
      intro e he
      obtain ⟨y, hy, rfl⟩ := List.mem_map.mp he
      split
      · simp [State.autoEntry, Notice.content, autoId]
      · exact h y hy

/-! ### The events -/

theorem State.handStage_queue (old : Progress) :
    (s.handStage old).notices.queue = ((s.stageOdo.stageSeats old).updateAuto).notices.queue := by
  simp [State.handStage]

theorem State.queue_of_notices {s t : State} (h : t.notices = s.notices) : s.SameNotices t := by
  unfold State.SameNotices; rw [h]

/-- What STAGE_CHANGE does to the notices, the phase and the Pool (R56, R74, R117). -/
theorem State.handStage_auto (old : Progress) : (s.handStage old).autoNow = s.autoAtStage s.autoNow := by
  have h1 : s.SameNotices (s.stageOdo.stageSeats old) := State.queue_of_notices (by simp)
  have h2 : (s.handStage old).autoNow = ((s.stageOdo.stageSeats old).updateAuto).autoNow := by
    unfold State.autoNow; rw [s.handStage_queue]
  rw [h2, State.updateAuto_auto, h1.auto]
  have hp : (s.stageOdo.stageSeats old).params = s.params := by
    have := congrArg PathPart.loader (by simp : (s.stageOdo.stageSeats old).path = s.path)
    exact congrArg (fun l : Loader => l.profile.params) this
  exact State.autoAtStage_congr (by simp) hp (by simp) (by simp) (by simp) _

theorem State.handStage_autos (old : Progress) (h : s.Autos) : (s.handStage old).Autos := by
  have h1 : s.SameNotices (s.stageOdo.stageSeats old) := State.queue_of_notices (by simp)
  have h2 := State.updateAuto_autos _ (h1.autos.mpr h)
  unfold State.Autos; rw [s.handStage_queue]; exact h2

theorem State.handStage_coach (old : Progress) (h : s.Autos) : (s.handStage old).coachNotices = s.coachNotices := by
  have h1 : s.SameNotices (s.stageOdo.stageSeats old) := State.queue_of_notices (by simp)
  have h2 := State.updateAuto_coach _ (h1.autos.mpr h)
  unfold State.coachNotices at h2 ⊢
  rw [s.handStage_queue, h2]; exact h1.coach

/-- The Phase Generator after STAGE_CHANGE (R117). -/
theorem State.handStage_phase_facts (old : Progress) : (s.handStage old).phase.facts =
    { s.phase.facts with
      blankAll := s.route.progress.blank
      seq := if s.phase.blankAll = s.route.progress.blank then s.phase.seq else advanced s.phase.seq } := by
  have h1 : ∀ v : State, v.phase = s.phase → v.route = s.route → v.stagePhase.phase.facts =
      { s.phase.facts with
        blankAll := s.route.progress.blank
        seq := if s.phase.blankAll = s.route.progress.blank then s.phase.seq else advanced s.phase.seq } := by
    intro v hv hr
    unfold State.stagePhase
    rw [hv, hr]
    split
    · next h => rw [← h, hv]; rfl
    · rfl
  exact h1 _ (by simp) (by simp)

/-- The Pool after STAGE_CHANGE (R56). -/
theorem State.handStage_pool (old : Progress) : (s.handStage old).seats.pool =
    if s.route.progress = .ended then
      s.seats.pool.filter fun q => (q.2.mappedTo s.route).all fun m =>
        match s.route.current with
        | some c => decide (c < m)
        | none => decide (s.route.pastEnd ≤ m)
    else s.seats.pool := by
  have h0 : (s.handStage old).seats.pool = (s.stageOdo.stageSeats old).seats.pool := by simp [State.handStage]
  rw [h0]
  unfold State.stageSeats
  have h1 : ∀ (b : Bool) (v : State), (if b = true then v.fullResolution else v).seats.pool = v.seats.pool := by
    intro b v; split <;> rfl
  dsimp only
  rw [h1]
  simp only [State.stageOdo_route]
  split
  · simp only [State.expireBelow, State.setSeats_seats, State.stageOdo_seats, State.stageOdo_route]
    apply List.filter_congr
    intro q _
    unfold Route.endBound
    cases q.2.mappedTo s.route <;> cases s.route.current <;> simp [Nat.succ_le_iff]
  · simp

theorem State.enterStage_auto (p : Progress) :
    (s.enterStage p).autoNow = (s.setRoute { s.route with progress := p }).autoAtStage s.autoNow := State.handStage_auto ..

theorem State.enterStage_autos (p : Progress) (h : s.Autos) : (s.enterStage p).Autos := State.handStage_autos _ _ h

theorem State.enterStage_coach (p : Progress) (h : s.Autos) : (s.enterStage p).coachNotices = s.coachNotices :=
  State.handStage_coach _ _ h

theorem State.enterStage_phase_facts (p : Progress) : (s.enterStage p).phase.facts =
    { s.phase.facts with
      blankAll := p.blank, seq := if s.phase.blankAll = p.blank then s.phase.seq else advanced s.phase.seq } :=
  State.handStage_phase_facts ..

theorem State.enterStage_pool (p : Progress) : (s.enterStage p).seats.pool =
    if p = .ended then
      s.seats.pool.filter fun q => (q.2.mappedTo s.route).all fun m =>
        match s.route.current with
        | some c => decide (c < m)
        | none => decide (s.route.pastEnd ≤ m)
    else s.seats.pool := State.handStage_pool ..

theorem State.compareBanner_same : s.SameNotices s.compareBanner := by
  unfold State.compareBanner; split <;> rfl

theorem State.targetNotices_same : s.refreshAuto.SameNotices s.targetNotices := by
  unfold State.targetNotices
  dsimp only
  split
  · split
    · exact State.compareBanner_same _
    · rfl
  · rfl

/-- TARGET_CHANGE refreshes the AUTO entry and leaves the other notices (R75). -/
theorem State.handTargetChange_same : (s.invalidate.fullResolution).refreshAuto.SameNotices s.handTargetChange := by
  have h : s.handTargetChange.notices = (s.invalidate.fullResolution).targetNotices.notices := by simp [State.handTargetChange]
  unfold State.SameNotices; rw [h]; exact State.targetNotices_same _

theorem State.handTargetChange_auto : s.handTargetChange.autoNow = s.autoAtTarget s.autoNow := by
  rw [s.handTargetChange_same.auto, State.refreshAuto_auto]; rfl

theorem State.handTargetChange_autos (h : s.Autos) : s.handTargetChange.Autos :=
  s.handTargetChange_same.autos.mpr (State.refreshAuto_autos _ h)

theorem State.handTargetChange_coach (h : s.Autos) : s.handTargetChange.coachNotices = s.coachNotices := by
  rw [s.handTargetChange_same.coach]; exact State.refreshAuto_coach (s.invalidate.fullResolution) h

end Sys2Proof.Machine
end

