-- ==== Sys2Proof/Laws/Memory.lean ====
section
/-! SUPPORT. The laws of memory: every operation over it keeps the canonical form, and a byte written is the byte read. -/

namespace Sys2Proof.Machine

/-- A list in canonical form above an address is in it above any lower one. -/
theorem Memory.wfFrom_mono (lo lo' : Nat) (m : Memory) (h : lo' ≤ lo) (hw : Memory.wfFrom lo m = true) : Memory.wfFrom lo' m = true := by
  cases m with
  | nil => rfl
  | cons p r => obtain ⟨k, b⟩ := p; simp only [Memory.wfFrom, Bool.and_eq_true, decide_eq_true_eq] at hw ⊢; exact ⟨⟨by omega, hw.1.2⟩, hw.2⟩

/-- An address below every listed one reads as a byte that nothing has written. -/
theorem Memory.read_below (lo : Nat) (m : Memory) (hw : Memory.wfFrom lo m = true) (a : Nat) (h : a < lo) : m.read a = Memory.blank := by
  induction m generalizing lo with
  | nil => rfl
  | cons p r ih =>
    obtain ⟨k, b⟩ := p
    simp only [Memory.wfFrom, Bool.and_eq_true, decide_eq_true_eq] at hw
    simp only [Memory.read]
    rw [if_neg (by omega)]
    exact ih (k+1) hw.2 (by omega)

/-- A byte written keeps the canonical form. -/
theorem Memory.wfFrom_write (lo : Nat) (m : Memory) (a : Nat) (v : Byte) (hw : Memory.wfFrom lo m = true) (h : lo ≤ a) : Memory.wfFrom lo (m.write a v) = true := by
  induction m generalizing lo with
  | nil => unfold Memory.write; split
           · rfl
           · next hv => simp only [Memory.wfFrom, Bool.and_eq_true, decide_eq_true_eq, and_true]; exact ⟨h, hv⟩
  | cons p r ih =>
    obtain ⟨k, b⟩ := p
    simp only [Memory.wfFrom, Bool.and_eq_true, decide_eq_true_eq] at hw
    simp only [Memory.write]
    by_cases h1 : a < k
    · rw [if_pos h1]
      by_cases hv : v = Memory.blank
      · rw [if_pos hv]; simp only [Memory.wfFrom, Bool.and_eq_true, decide_eq_true_eq]; exact hw
      · rw [if_neg hv]; simp only [Memory.wfFrom, Bool.and_eq_true, decide_eq_true_eq]; exact ⟨⟨h, hv⟩, ⟨by omega, hw.1.2⟩, hw.2⟩
    · rw [if_neg h1]
      by_cases h2 : a = k
      · rw [if_pos h2]
        by_cases hv : v = Memory.blank
        · rw [if_pos hv]; exact Memory.wfFrom_mono (k+1) lo r (by omega) hw.2
        · rw [if_neg hv]; simp only [Memory.wfFrom, Bool.and_eq_true, decide_eq_true_eq]; exact ⟨⟨hw.1.1, hv⟩, hw.2⟩
      · rw [if_neg h2]
        simp only [Memory.wfFrom, Bool.and_eq_true, decide_eq_true_eq]
        exact ⟨hw.1, ih (k+1) hw.2 (by omega)⟩

/-- A byte written is read back, and every other address reads as before. -/
theorem Memory.readFrom_write (lo : Nat) (m : Memory) (a b : Nat) (v : Byte) (hw : Memory.wfFrom lo m = true) : (m.write a v).read b = if b = a then v else m.read b := by
  induction m generalizing lo with
  | nil =>
    unfold Memory.write
    split
    · next h => simp only [Memory.read, h]; split <;> rfl
    · simp only [Memory.read]; by_cases h : b = a <;> simp [h]; intro h'; exact absurd h'.symm h
  | cons p r ih =>
    obtain ⟨k, c⟩ := p
    simp only [Memory.wfFrom, Bool.and_eq_true, decide_eq_true_eq] at hw
    simp only [Memory.write]
    by_cases h1 : a < k
    · rw [if_pos h1]
      by_cases hv : v = Memory.blank
      · rw [if_pos hv]
        by_cases hb : b = a
        · rw [if_pos hb, hv, hb]
          simp only [Memory.read]; rw [if_neg (by omega)]
          exact Memory.read_below (k+1) r hw.2 a (by omega)
        · rw [if_neg hb]
      · rw [if_neg hv]; by_cases hb : b = a
        · rw [if_pos hb]; simp [Memory.read, hb]
        · rw [if_neg hb]; simp only [Memory.read]; rw [if_neg (fun h => hb h.symm)]
    · rw [if_neg h1]
      by_cases h2 : a = k
      · rw [if_pos h2]
        by_cases hv : v = Memory.blank
        · rw [if_pos hv]; by_cases hb : b = a
          · rw [if_pos hb, hb, h2, hv]; exact Memory.read_below (k+1) r hw.2 k (by omega)
          · rw [if_neg hb]; simp only [Memory.read]; rw [if_neg (by omega)]
        · rw [if_neg hv]; by_cases hb : b = a
          · rw [if_pos hb]; simp [Memory.read, hb, h2]
          · rw [if_neg hb]; simp only [Memory.read]; rw [if_neg (by omega), if_neg (by omega)]
      · rw [if_neg h2]
        simp only [Memory.read]
        rw [ih (k+1) hw.2]
        by_cases hb : b = a
        · subst hb; simp; intro h; omega
        · simp [hb]


/-- One lane written keeps the canonical form. -/
theorem Memory.wf_writeLane (m : Memory) (l w : Nat) (ww : WWord) (lane : Nat) (h : m.wf = true) : (m.writeLane l w ww lane).wf = true := by
  unfold Memory.writeLane; split
  · exact Memory.wfFrom_write 0 m _ _ h (Nat.zero_le _)
  · exact h

/-- What one lane written leaves at every address. -/
theorem Memory.read_writeLane (m : Memory) (l w : Nat) (ww : WWord) (lane a : Nat) (h : m.wf = true) :
    (m.writeLane l w ww lane).read a = if a = byteAddr l w lane ∧ ww.lanes.getLsbD lane = true then laneByte ww.data lane else m.read a := by
  unfold Memory.writeLane; split
  · next hl => rw [Memory.readFrom_write 0 m _ _ _ h]; simp [hl]
  · next hl => simp [hl]

/-- One word written keeps the canonical form. -/
theorem Memory.wf_writeWord (m : Memory) (l w : Nat) (ww : WWord) (h : m.wf = true) : (m.writeWord l w ww).wf = true :=
  Memory.wf_writeLane _ _ _ _ _ (Memory.wf_writeLane _ _ _ _ _ (Memory.wf_writeLane _ _ _ _ _ (Memory.wf_writeLane _ _ _ _ _ h)))

/-- Words written keep the canonical form (R121). -/
theorem Memory.wf_writeWords (m : Memory) (l first : Nat) (ws : List WWord) (h : m.wf = true) : (m.writeWords l first ws).wf = true := by
  induction ws generalizing m first with
  | nil => exact h
  | cons w ws ih => exact ih _ _ (Memory.wf_writeWord m l first w h)

/-- What a failed write leaves keeps the canonical form (log 4). -/
theorem Memory.wf_scribble (m : Memory) (f a n : Nat) (h : m.wf = true) : (m.scribble f a n).wf = true := by
  induction n generalizing m f a with
  | zero => exact h
  | succ n ih => exact ih _ _ _ (Memory.wfFrom_write 0 m _ _ h (Nat.zero_le _))

/-- A byte written keeps the canonical form. -/
theorem Memory.wf_write (m : Memory) (a : Nat) (v : Byte) (h : m.wf = true) : (m.write a v).wf = true :=
  Memory.wfFrom_write 0 m a v h (Nat.zero_le _)

/-- A byte written is read back, and every other address reads as before. -/
theorem Memory.read_write (m : Memory) (a b : Nat) (v : Byte) (h : m.wf = true) :
    (m.write a v).read b = if b = a then v else m.read b := Memory.readFrom_write 0 m a b v h

/-- Memory after reset has the canonical form. -/
theorem Memory.wf_reset : State.reset.mem.wf = true := rfl

end Sys2Proof.Machine
end

