-- ==== Sys2Proof/Laws/Path.lean ====
section
/-! SUPPORT. The Arbiter's lock state and the late part fetch: what each of their operations can do. -/

namespace Sys2Proof.Machine

/-! `caughtUp` -/

variable (a : Arbiter)

@[simp] theorem Arbiter.caughtUp_port : a.caughtUp.port = a.port := rfl
@[simp] theorem Arbiter.caughtUp_locked : a.caughtUp.locked = a.locked := rfl
@[simp] theorem Arbiter.caughtUp_count : a.caughtUp.count = a.count := rfl
@[simp] theorem Arbiter.caughtUp_idle : a.caughtUp.idle = a.idle := rfl
@[simp] theorem Arbiter.caughtUp_lastStore : a.caughtUp.lastStore = a.lastStore := rfl
@[simp] theorem Arbiter.caughtUp_fetchLate : a.caughtUp.fetchLate = false := rfl

/-- The Arbiter after a sequence has ended (R145, R147). -/
theorem Arbiter.ended_eq : a.ended = { a with locked := false, count := 0, idle := none, fetchLate := false } := rfl

/-- A take-up ends the wait of a late part fetch. -/
@[simp] theorem Arbiter.takeUp_fetchLate (lock : Bool) : (a.takeUp lock).fetchLate = false := by
  unfold Arbiter.takeUp; (repeat' split) <;> rfl

@[simp] theorem Arbiter.takeUp_port (lock : Bool) : (a.takeUp lock).port = a.port := by
  unfold Arbiter.takeUp; (repeat' split) <;> rfl

/-- A transfer taken up and answered without the memory port. -/
theorem Arbiter.takeUp_answered (lock : Bool) : (a.takeUp lock).answered lock = a.afterAnswer lock := by
  obtain ⟨p, l, n, i, st, f⟩ := a
  cases l <;> cases lock <;> rfl

@[simp] theorem Arbiter.answered_port (lock : Bool) : (a.answered lock).port = a.port := by
  unfold Arbiter.answered; (repeat' split) <;> rfl

/-- An answer makes no part fetch late. -/
theorem Arbiter.answered_late (lock : Bool) (h : (a.answered lock).fetchLate = true) : a.fetchLate = true := by
  revert h; unfold Arbiter.answered; (repeat' split) <;> intro h
  · exact h
  · cases h
  · exact h

/-- An answer that leaves a part fetch late leaves the lock state as it was. -/
theorem Arbiter.answered_late_locked (lock : Bool) (h : (a.answered lock).fetchLate = true) :
    (a.answered lock).locked = a.locked := by
  revert h; unfold Arbiter.answered; (repeat' split) <;> intro h
  · rfl
  · cases h
  · rfl

/-! `presentFetch` and `fetchSince` -/

variable (s : State)

/-- All that the presentation of a part fetch can do: the fetch may be late, outside a locked sequence and beside another request. -/
theorem State.presentFetch_cases :
    s.presentFetch = { s with arb := { s.arb with fetchLate := s.presentFetch.arb.fetchLate }, free := s.free + 1 }
      ∧ (s.presentFetch.arb.fetchLate = true → s.arb.locked = false ∧ s.othersStand = true) := by
  refine ⟨rfl, fun h => ?_⟩
  have h' : (!s.arb.locked && s.othersStand && Config.answerFirst s.free) = true := h
  simp only [Bool.and_eq_true, Bool.not_eq_true'] at h'
  exact h'.1

/-- All that `fetchSince` can do: nothing without a fetch begun, else the presentation of that fetch. -/
theorem State.fetchSince_cases (before : Option (List Word)) :
    ((s.loader.fetch = before ∨ s.loader.fetch = none) ∧ s.fetchSince before = s)
      ∨ (s.loader.fetch ≠ before ∧ s.loader.fetch ≠ none ∧ s.fetchSince before = s.presentFetch) := by
  unfold State.fetchSince
  split
  · next h => exact .inl ⟨h, rfl⟩
  · next h => exact .inr ⟨fun e => h (.inl e), fun e => h (.inr e), rfl⟩

@[simp] theorem State.fetchSince_loader (before : Option (List Word)) : (s.fetchSince before).loader = s.loader := by
  unfold State.fetchSince; split <;> rfl

/-- What a request beside the part fetch is, as a test and in words. -/
theorem State.othersStand_iff : s.othersStand = true ↔ s.OtherStands := by
  unfold State.othersStand State.OtherStands
  simp only [Bool.or_eq_true, Option.isSome_iff_ne_none, Bool.not_eq_true', List.isEmpty_eq_false_iff, or_assoc]

end Sys2Proof.Machine
end

