-- ==== Sys2Proof/Laws/PerInstr.lean ====
section
/-! SUPPORT. The per-command family `Unspelled`: the opcode table gives its rows no bits, so no word spells a command, and every
command but a transfer is well-formed whatever its operands. -/

namespace Sys2Proof.Laws.Unspelled

/-- No word of the table spells the command, and it is well-formed unless it is a transfer out of R121's ranges. -/
def Statement (i : Sys2Proof.Instr) : Prop :=
  (∀ nbits w, Sys2Proof.decodeTableWord nbits w ≠ some i)
    ∧ (i.wf = true ∨ ∃ t, i = .transferArrival t ∧ (t.lineOk && t.formOk) = false)

/-- A well-formed command has the statement. -/
theorem of_wf (i : Sys2Proof.Instr) (h : i.wf = true) : Statement i := ⟨fun _ _ h => (nomatch h : False), .inl h⟩

theorem resetAsserted : Statement .resetAsserted := of_wf _ rfl

theorem resetReleased (a b : Bool) : Statement (.resetReleased a b) := of_wf _ rfl

theorem doorReleaseAcceptance : Statement .doorReleaseAcceptance := of_wf _ rfl

theorem doorClosedAcceptance : Statement .doorClosedAcceptance := of_wf _ rfl

theorem pulse : Statement .pulse := of_wf _ rfl

theorem pulseRejected : Statement .pulseRejected := of_wf _ rfl

theorem windowEnd : Statement .windowEnd := of_wf _ rfl

theorem clockAdvance : Statement .clockAdvance := of_wf _ rfl

theorem dwellExpiry : Statement .dwellExpiry := of_wf _ rfl

theorem chimePulseEnd : Statement .chimePulseEnd := of_wf _ rfl

theorem remapLatchTimeout (w : Win) : Statement (.remapLatchTimeout w) := of_wf _ rfl

theorem lockIdleExpiry : Statement .lockIdleExpiry := of_wf _ rfl

theorem phaseToggle : Statement .phaseToggle := of_wf _ rfl

theorem transferArrival (t : Transfer) : Statement (.transferArrival t) := by
  cases h : (t.lineOk && t.formOk)
  · exact ⟨fun _ _ h => (nomatch h : False), .inr ⟨t, rfl, h⟩⟩
  · exact of_wf _ h

theorem coachRead : Statement .coachRead := of_wf _ rfl

theorem coachWrite : Statement .coachWrite := of_wf _ rfl

theorem postedWrite : Statement .postedWrite := of_wf _ rfl

theorem commit : Statement .commit := of_wf _ rfl

theorem panelRead : Statement .panelRead := of_wf _ rfl

theorem grant : Statement .grant := of_wf _ rfl

theorem passingTransferAnswer (ok : Bool) : Statement (.passingTransferAnswer ok) := of_wf _ rfl

theorem postAnswer (ok : Bool) : Statement (.postAnswer ok) := of_wf _ rfl

theorem commitWriteAnswer (ok : Bool) : Statement (.commitWriteAnswer ok) := of_wf _ rfl

theorem commitFetchAnswer (ok : Bool) : Statement (.commitFetchAnswer ok) := of_wf _ rfl

theorem profileLineReadAnswer (ok : Bool) : Statement (.profileLineReadAnswer ok) := of_wf _ rfl

theorem writebackCompletion (ok : Bool) : Statement (.writebackCompletion ok) := of_wf _ rfl

theorem ackWrite : Statement .ackWrite := of_wf _ rfl

theorem profileCommit : Statement .profileCommit := of_wf _ rfl

theorem routeRecord : Statement .routeRecord := of_wf _ rfl

theorem routeRecordEmpty : Statement .routeRecordEmpty := of_wf _ rfl

theorem reservationRecord : Statement .reservationRecord := of_wf _ rfl

theorem void : Statement .void := of_wf _ rfl

theorem positionFix : Statement .positionFix := of_wf _ rfl

theorem stopCalled : Statement .stopCalled := of_wf _ rfl

theorem stopSkipped : Statement .stopSkipped := of_wf _ rfl

theorem stopRestored : Statement .stopRestored := of_wf _ rfl

theorem depart : Statement .depart := of_wf _ rfl

theorem delay : Statement .delay := of_wf _ rfl

theorem clock : Statement .clock := of_wf _ rfl

theorem portionSet : Statement .portionSet := of_wf _ rfl

theorem orientation : Statement .orientation := of_wf _ rfl

theorem noticeAdd : Statement .noticeAdd := of_wf _ rfl

theorem noticeCancel : Statement .noticeCancel := of_wf _ rfl

theorem journeyReset : Statement .journeyReset := of_wf _ rfl

theorem presentedTransferFinished (ok : Bool) : Statement (.presentedTransferFinished ok) := of_wf _ rfl

end Sys2Proof.Laws.Unspelled
end

