-- ==== Sys2Proof/Laws/RouteTable.lean ====
section
/-! SUPPORT. The Route Table read through its entries: what a change of statuses, a selection and an arrival give every slot. -/

namespace Sys2Proof.Machine

/-! ### Entries and slots -/

theorem validFrom_setStatus (f : Nat → StopEntry → Status) (l : List (Option StopEntry)) (i : Nat) :
    validFrom i (setStatus f i l) = (validFrom i l).map fun q => (q.1, { q.2 with status := f q.1 q.2 }) := by
  induction l generalizing i with
  | nil => rfl
  | cons a l ih => cases a <;> simp [setStatus, validFrom, ih]

/-- The entries after a change of statuses. -/
theorem Route.entries_mapStatus (r : Route) (f : Nat → StopEntry → Status) :
    (r.mapStatus f).entries = r.entries.map fun q => (q.1, { q.2 with status := f q.1 q.2 }) :=
  validFrom_setStatus f r.table 0

theorem setStatus_getD (f : Nat → StopEntry → Status) (l : List (Option StopEntry)) (i n : Nat) :
    (setStatus f i l).getD n none = (l.getD n none).map fun e => { e with status := f (i + n) e } := by
  induction l generalizing i n with
  | nil => simp [setStatus]
  | cons a l ih =>
    cases n with
    | zero => cases a <;> simp [setStatus]
    | succ n =>
      have h := ih (i + 1) n
      have e : i + 1 + n = i + (n + 1) := by omega
      rw [e] at h
      cases a <;> simpa [setStatus] using h

/-- The entry of a slot after a change of statuses. -/
@[simp] theorem Route.entry_mapStatus (r : Route) (f : Nat → StopEntry → Status) (i : Nat) :
    (r.mapStatus f).entry i = (r.entry i).map fun e => { e with status := f i e } := by
  have h := setStatus_getD f r.table 0 i
  simpa [Route.entry, Route.mapStatus] using h

theorem mem_validFrom (l : List (Option StopEntry)) (i n : Nat) (e : StopEntry) :
    (n, e) ∈ validFrom i l ↔ i ≤ n ∧ l.getD (n - i) none = some e := by
  induction l generalizing i with
  | nil => simp [validFrom]
  | cons a l ih =>
    by_cases hn : n = i
    · subst hn
      cases a with
      | none => simp [validFrom, ih] <;> omega
      | some b => simp [validFrom, ih, eq_comm] <;> omega
    · have hd : ∀ h : i ≤ n, n - i = (n - (i + 1)) + 1 := fun h => by omega
      cases a with
      | none =>
        simp only [validFrom, ih]
        constructor
        · rintro ⟨h1, h2⟩; exact ⟨by omega, by rw [hd (by omega)]; simpa using h2⟩
        · rintro ⟨h1, h2⟩; exact ⟨by omega, by rw [hd h1] at h2; simpa using h2⟩
      | some b =>
        simp only [validFrom, List.mem_cons, ih, Prod.mk.injEq, hn, false_and, false_or]
        constructor
        · rintro ⟨h1, h2⟩; exact ⟨by omega, by rw [hd (by omega)]; simpa using h2⟩
        · rintro ⟨h1, h2⟩; exact ⟨by omega, by rw [hd h1] at h2; simpa using h2⟩

/-- A slot and an entry are listed together exactly when the slot holds the entry. -/
theorem Route.mem_entries (r : Route) (i : Nat) (e : StopEntry) : (i, e) ∈ r.entries ↔ r.entry i = some e := by
  simp [Route.entries, mem_validFrom, Route.entry]

theorem validFrom_sorted (l : List (Option StopEntry)) (i : Nat) :
    (validFrom i l).Pairwise (fun a b => a.1 < b.1) ∧ ∀ q ∈ validFrom i l, i ≤ q.1 := by
  induction l generalizing i with
  | nil => simp [validFrom]
  | cons a l ih =>
    have h := ih (i + 1)
    cases a with
    | none => exact ⟨h.1, fun q hq => by have := h.2 q hq; omega⟩
    | some b =>
      refine ⟨List.pairwise_cons.mpr ⟨fun q hq => ?_, h.1⟩, fun q hq => ?_⟩
      · have := h.2 q hq; simp; omega
      · rcases List.mem_cons.mp hq with rfl | hq
        · simp
        · have := h.2 q hq; omega

/-- The entries are listed with slots rising. -/
theorem Route.entries_sorted (r : Route) : r.entries.Pairwise (fun a b => a.1 < b.1) := (validFrom_sorted r.table 0).1

/-! ### The past line -/

theorem lastEnd_foldl (p : StopEntry → Bool) (es : List (Nat × StopEntry)) (n acc : Nat)
    (hs : es.Pairwise fun a b => a.1 < b.1) (ha : ∀ q ∈ es, acc ≤ q.1 + 1) :
    es.foldl (fun acc q => if p q.2 then q.1 + 1 else acc) acc ≤ n
      ↔ acc ≤ n ∧ ∀ q ∈ es, p q.2 = true → q.1 < n := by
  induction es generalizing acc with
  | nil => simp
  | cons q es ih =>
    have hs' := List.pairwise_cons.mp hs
    have hq := ha q (by simp)
    simp only [List.foldl_cons, List.mem_cons, forall_eq_or_imp]
    by_cases hp : p q.2 = true
    · rw [if_pos hp, ih _ hs'.2 fun x hx => by have := hs'.1 x hx; omega]
      constructor
      · rintro ⟨h1, h2⟩; exact ⟨by omega, fun _ => by omega, h2⟩
      · rintro ⟨h1, h2, h3⟩; have := h2 hp; exact ⟨by omega, h3⟩
    · rw [if_neg hp, ih _ hs'.2 fun x hx => ha x (by simp [hx])]
      constructor
      · rintro ⟨h1, h2⟩; exact ⟨h1, fun h => absurd h hp, h2⟩
      · rintro ⟨h1, h2, h3⟩; exact ⟨h1, h3⟩

/-- The end of the listed entries that satisfy a test is at most `n` exactly when each of their slots is below `n`. -/
theorem lastEnd_le (p : StopEntry → Bool) (es : List (Nat × StopEntry)) (hs : es.Pairwise fun a b => a.1 < b.1) (n : Nat) :
    lastEnd p es ≤ n ↔ ∀ q ∈ es, p q.2 = true → q.1 < n := by
  simp [lastEnd, lastEnd_foldl p es n 0 hs]

/-- Slot `n` is above the past line exactly when every past entry's slot is below it. -/
theorem Route.pastEnd_le (r : Route) (n : Nat) : r.pastEnd ≤ n ↔ ∀ i e, r.entry i = some e → e.isPast = true → i < n := by
  rw [Route.pastEnd, lastEnd_le _ _ r.entries_sorted]
  constructor
  · intro h i e he hp; exact h (i, e) ((r.mem_entries i e).mpr he) hp
  · intro h q hq hp; exact h q.1 q.2 ((r.mem_entries q.1 q.2).mp hq) hp

/-! ### The entry with a status -/

/-- The first listed slot that satisfies a test, by slots: the least slot whose entry does. -/
theorem Route.find_slot (r : Route) (p : Nat × StopEntry → Bool) (t : Nat) :
    (r.entries.find? p).map (·.1) = some t ↔
      ∃ e, r.entry t = some e ∧ p (t, e) = true ∧ ∀ i e', i < t → r.entry i = some e' → p (i, e') = false := by
  constructor
  · intro h
    cases hf : r.entries.find? p with
    | none => simp [hf] at h
    | some q =>
      simp [hf] at h
      obtain ⟨hp, as, bs, heq, hall⟩ := List.find?_eq_some_iff_append.mp hf
      refine ⟨q.2, ?_, by rw [← h]; exact hp, ?_⟩
      · rw [← r.mem_entries, ← h, heq]; simp
      · intro i e' hi he'
        have hm := (r.mem_entries i e').mpr he'
        have hs := r.entries_sorted
        rw [heq] at hm hs
        have hs' := List.pairwise_append.mp hs
        rcases List.mem_append.mp hm with hm | hm
        · have := hall _ hm; simpa using this
        · rcases List.mem_cons.mp hm with hm | hm
          · subst hm; simp at h; omega
          · have := (List.pairwise_cons.mp hs'.2.1).1 _ hm; simp at this; omega
  · rintro ⟨e, he, hp, hall⟩
    have hm := (r.mem_entries t e).mpr he
    cases hf : r.entries.find? p with
    | none => have := List.find?_eq_none.mp hf _ hm; exact absurd hp this
    | some q =>
      have hq := List.find?_some hf
      have hqm := (r.mem_entries q.1 q.2).mp (List.mem_of_find?_eq_some hf)
      obtain ⟨_, as, bs, heq, hall'⟩ := List.find?_eq_some_iff_append.mp hf
      have h1 : ¬ q.1 < t := fun hlt => by have := hall q.1 q.2 hlt hqm; simp [hq] at this
      have h2 : ¬ t < q.1 := fun hlt => by
        have hs := r.entries_sorted
        rw [heq] at hm hs
        have hs' := List.pairwise_append.mp hs
        rcases List.mem_append.mp hm with hm | hm
        · have := hall' _ hm; simp [hp] at this
        · rcases List.mem_cons.mp hm with hm | hm
          · rw [← hm] at hlt; simp at hlt
          · have := (List.pairwise_cons.mp hs'.2.1).1 _ hm; simp at this; omega
      simp; omega

theorem Route.find_none (r : Route) (p : Nat × StopEntry → Bool) :
    (r.entries.find? p).map (·.1) = none ↔ ∀ i e, r.entry i = some e → p (i, e) = false := by
  simp only [Option.map_eq_none_iff, List.find?_eq_none]
  constructor
  · intro h i e he
    have := h (i, e) ((r.mem_entries i e).mpr he)
    simpa using this
  · intro h q hq
    have := h q.1 q.2 ((r.mem_entries q.1 q.2).mp hq)
    simp [this]

/-! ### One entry with a status -/

theorem filter_le_one (es : List (Nat × StopEntry)) (hs : es.Pairwise fun a b => a.1 < b.1) (p : Nat × StopEntry → Bool) :
    (es.filter p).length ≤ 1 ↔ ∀ a ∈ es, ∀ b ∈ es, p a = true → p b = true → a.1 = b.1 := by
  constructor
  · intro h a ha b hb pa pb
    have h1 : a ∈ es.filter p := List.mem_filter.mpr ⟨ha, pa⟩
    have h2 : b ∈ es.filter p := List.mem_filter.mpr ⟨hb, pb⟩
    match hl : es.filter p with
    | [] => rw [hl] at h1; simp at h1
    | [x] => rw [hl] at h1 h2; simp at h1 h2; rw [h1, h2]
    | x :: y :: l => rw [hl] at h; simp at h
  · intro h
    have hs' := hs.filter p
    match hl : es.filter p with
    | [] => simp
    | [x] => simp
    | x :: y :: l =>
      exfalso
      have hx : x ∈ es.filter p := by rw [hl]; simp
      have hy : y ∈ es.filter p := by rw [hl]; simp
      have hx' := List.mem_filter.mp hx
      have hy' := List.mem_filter.mp hy
      have := h x hx'.1 y hy'.1 hx'.2 hy'.2
      rw [hl] at hs'
      have := (List.pairwise_cons.mp hs').1 y (by simp)
      omega

/-- At most one entry has a status, read by slots. -/
theorem Route.one_status (r : Route) (st : Status) :
    (r.entries.filter fun q => decide (q.2.status = st)).length ≤ 1
      ↔ ∀ i j a b, r.entry i = some a → r.entry j = some b → a.status = st → b.status = st → i = j := by
  rw [filter_le_one _ r.entries_sorted]
  constructor
  · intro h i j a b ha hb sa sb
    exact h (i, a) ((r.mem_entries i a).mpr ha) (j, b) ((r.mem_entries j b).mpr hb) (by simpa using sa) (by simpa using sb)
  · intro h a ha b hb pa pb
    exact h a.1 b.1 a.2 b.2 ((r.mem_entries _ _).mp ha) ((r.mem_entries _ _).mp hb) (by simpa using pa) (by simpa using pb)

/-- The TARGET's slot holds an entry with that status. -/
theorem Route.target_some (r : Route) (t : Nat) (h : r.target = some t) : ∃ e, r.entry t = some e ∧ e.status = .target := by
  obtain ⟨e, he, hp, _⟩ := (r.find_slot _ t).mp h
  exact ⟨e, he, by simpa using hp⟩

/-- The CURRENT's slot holds an entry with that status. -/
theorem Route.current_some (r : Route) (t : Nat) (h : r.current = some t) :
    ∃ e, r.entry t = some e ∧ e.status = .current := by
  obtain ⟨e, he, hp, _⟩ := (r.find_slot _ t).mp h
  exact ⟨e, he, by simpa using hp⟩

theorem Route.target_none (r : Route) (h : r.target = none) (i : Nat) (e : StopEntry) (he : r.entry i = some e) :
    e.status ≠ .target := by
  have := (r.find_none _).mp h i e he; simpa using this

theorem Route.current_none (r : Route) (h : r.current = none) (i : Nat) (e : StopEntry) (he : r.entry i = some e) :
    e.status ≠ .current := by
  have := (r.find_none _).mp h i e he; simpa using this

/-- A slot whose entry alone is TARGET is the TARGET. -/
theorem Route.target_eq (r : Route) (t : Nat) (e : StopEntry) (he : r.entry t = some e) (hs : e.status = .target)
    (hu : ∀ i a, r.entry i = some a → a.status = .target → i = t) : r.target = some t := by
  rw [Route.target, r.find_slot]
  refine ⟨e, he, by simp [hs], fun i e' hi he' => ?_⟩
  simp only [decide_eq_false_iff_not]
  intro h
  have := hu i e' he' h; omega

/-- A slot whose entry alone is CURRENT is the CURRENT. -/
theorem Route.current_eq (r : Route) (t : Nat) (e : StopEntry) (he : r.entry t = some e) (hs : e.status = .current)
    (hu : ∀ i a, r.entry i = some a → a.status = .current → i = t) : r.current = some t := by
  rw [Route.current, r.find_slot]
  refine ⟨e, he, by simp [hs], fun i e' hi he' => ?_⟩
  simp only [decide_eq_false_iff_not]
  intro h
  have := hu i e' he' h; omega

/-- An entry is selectable (R7) in these words. -/
theorem selectable_iff (pe i : Nat) (e : StopEntry) :
    selectable pe (i, e) = true ↔ pe ≤ i ∧ e.kind = .call ∧ (e.status = .ahead ∨ e.status = .target) := by
  simp [selectable, StopEntry.isCall, and_assoc]

/-- A past entry in these words. -/
theorem isPast_iff (e : StopEntry) :
    e.isPast = true ↔ e.kind = .call ∧ (e.status = .current ∨ e.status = .passed ∨ e.status = .missed) := by
  simp [StopEntry.isPast, StopEntry.isCall, or_assoc]

/-- The entry of a slot after a selection. -/
theorem Route.entry_select (r : Route) (i : Nat) :
    r.select.entry i = (r.entry i).map fun e =>
      { e with status :=
          if some i = r.selection then .target
          else if e.status = .target ∧ selectable r.pastEnd (i, e) = true then .ahead
          else e.status } := by
  rw [Route.select, Route.entry_mapStatus]

/-- The selection is the least slot whose entry is selectable. -/
theorem Route.selection_some (r : Route) (t : Nat) :
    r.selection = some t ↔
      ∃ e, r.entry t = some e ∧ selectable r.pastEnd (t, e) = true
        ∧ ∀ i e', i < t → r.entry i = some e' → selectable r.pastEnd (i, e') = false :=
  r.find_slot _ t

/-- When every TARGET entry may be selected again, the TARGET after a selection is what the selection gives (R7). -/
theorem Route.target_select (r : Route)
    (h : ∀ i e, r.entry i = some e → e.status = .target → selectable r.pastEnd (i, e) = true) :
    r.select.target = r.selection := by
  cases hs : r.selection with
  | none =>
    rw [Route.target, Route.find_none]
    intro i e he
    rw [Route.entry_select, hs] at he
    cases hi : r.entry i with
    | none => simp [hi] at he
    | some a =>
      simp [hi] at he
      subst he
      simp only [decide_eq_false_iff_not]
      have hn := (r.find_none _).mp hs i a hi
      split
      · simp
      · next hc => intro ht; exact hc ⟨ht, by simpa using h i a hi ht⟩
  | some t =>
    obtain ⟨e, he, hp, hl⟩ := (r.selection_some t).mp hs
    refine Route.target_eq _ t { e with status := .target } (by rw [Route.entry_select, he, hs]; simp) rfl ?_
    intro i a ha hst
    rw [Route.entry_select, hs] at ha
    cases hi : r.entry i with
    | none => simp [hi] at ha
    | some b =>
      simp [hi] at ha
      subst ha
      by_cases hit : i = t
      · exact hit
      · exfalso
        simp only [hit, if_false] at hst
        split at hst
        · cases hst
        · next hc => exact hc ⟨hst, by simpa using h i b hi hst⟩

/-! ### A stop reached (R14) -/

/-- The status that the steps 1 to 4 of R14 give an entry, before the reselection. -/
def Route.reached (r : Route) (x : Nat) (jumped : Bool) (i : Nat) (e : StopEntry) : Status :=
  if i = x then .current
  else if e.status = .current then .passed
  else if jumped ∧ r.pastEnd ≤ i ∧ i < x ∧ e.kind = .call ∧ (e.status = .ahead ∨ e.status = .target) then .missed
  else if i < x ∧ e.kind = .pass ∧ e.status = .ahead then .passed
  else e.status

/-- The route after the steps 1 to 5 of R14. -/
def Route.preReach (r : Route) (x : Nat) (jumped : Bool) : Route :=
  { r.mapStatus (r.reached x jumped) with progress := .standing, departFlag := false, lastMissed := none }

theorem Route.reach_eq (r : Route) (x : Nat) (jumped : Bool) : r.reach x jumped = (r.preReach x jumped).select := rfl

theorem Route.entry_preReach (r : Route) (x : Nat) (jumped : Bool) (i : Nat) :
    (r.preReach x jumped).entry i = (r.entry i).map fun e => { e with status := r.reached x jumped i e } :=
  r.entry_mapStatus (r.reached x jumped) i

/-- The past line after a stop reached at a slot with no past entry above it is that slot. -/
theorem Route.pastEnd_preReach (r : Route) (x : Nat) (e : StopEntry) (jumped : Bool) (he : r.entry x = some e)
    (hc : e.kind = .call) (hp : r.pastEnd ≤ x + 1) : (r.preReach x jumped).pastEnd = x + 1 := by
  apply Nat.le_antisymm
  · rw [Route.pastEnd_le]
    intro i a ha hpast
    rw [Route.entry_preReach] at ha
    cases hi : r.entry i with
    | none => simp [hi] at ha
    | some b =>
      simp [hi] at ha; subst ha
      refine Classical.byContradiction fun hlt => ?_
      have hb : b.isPast = false := by
        refine Classical.byContradiction fun hb => ?_
        have := (r.pastEnd_le (x + 1)).mp hp i b hi (by simpa using hb); omega
      rw [isPast_iff] at hpast
      have hnp : ¬ (b.kind = .call ∧ (b.status = .current ∨ b.status = .passed ∨ b.status = .missed)) := by
        rw [← isPast_iff]; simp [hb]
      obtain ⟨hk, hst⟩ := hpast
      simp only [Route.reached] at hst
      have hk' : b.kind = .call := hk
      have h1 : ¬ i = x := by omega
      have h2 : b.status ≠ .current := fun h => hnp ⟨hk', .inl h⟩
      simp only [h1, h2, if_false] at hst
      rw [if_neg (by intro h; omega), if_neg (by intro h; omega)] at hst
      exact hnp ⟨hk', hst⟩
  · refine Classical.byContradiction fun hlt => ?_
    have hlt : (r.preReach x jumped).pastEnd ≤ x := by omega
    have := ((r.preReach x jumped).pastEnd_le x).mp hlt x { e with status := .current }
      (by rw [Route.entry_preReach, he]; simp [Route.reached]) (by simp [isPast_iff, hc])
    omega

/-- The TARGET after a stop reached is the least AHEAD or TARGET calling stop above it (R14, step 6). -/
theorem Route.target_reach (r : Route) (x : Nat) (e : StopEntry) (jumped : Bool) (he : r.entry x = some e)
    (hc : e.kind = .call) (hp : r.pastEnd ≤ x + 1)
    (ht : ∀ i a, r.entry i = some a → a.status = .target →
      a.kind = .call ∧ (i = x ∨ x < i ∨ (jumped = true ∧ r.pastEnd ≤ i ∧ i < x))) :
    (r.reach x jumped).target = (r.entries.find? fun q =>
      decide (x < q.1) && q.2.isCall && (decide (q.2.status = .ahead) || decide (q.2.status = .target))).map (·.1) := by
  have hpe := r.pastEnd_preReach x e jumped he hc hp
  have habove : ∀ i a, x < i → r.reached x jumped i a = if a.status = .current then .passed else a.status := by
    intro i a hi
    unfold Route.reached
    rw [if_neg (by omega)]
    split
    · rfl
    · rw [if_neg (by intro h; omega), if_neg (by intro h; omega)]
  rw [Route.reach_eq, Route.target_select]
  · cases hsel : (r.preReach x jumped).selection with
    | none =>
      symm; rw [Route.find_none]
      intro i a ha
      refine Classical.byContradiction fun hcon => ?_
      simp only [Bool.not_eq_false, Bool.and_eq_true, Bool.or_eq_true, decide_eq_true_eq] at hcon
      have hn := (Route.find_none _ _).mp hsel i { a with status := r.reached x jumped i a }
        (by rw [Route.entry_preReach, ha]; rfl)
      have : selectable (r.preReach x jumped).pastEnd (i, { a with status := r.reached x jumped i a }) = true := by
        rw [selectable_iff, hpe, habove i a hcon.1.1]
        refine ⟨by omega, by simpa [StopEntry.isCall] using hcon.1.2, ?_⟩
        rcases hcon.2 with h | h <;> simp [h]
      rw [this] at hn; cases hn
    | some t =>
      symm; rw [Route.find_slot]
      obtain ⟨a, ha, hsa, hl⟩ := (Route.selection_some _ t).mp hsel
      rw [Route.entry_preReach] at ha
      cases hi : r.entry t with
      | none => simp [hi] at ha
      | some b =>
        simp [hi] at ha; subst ha
        rw [selectable_iff, hpe] at hsa
        obtain ⟨h1, h2, h3⟩ := hsa
        simp only [habove t b (by omega)] at h3
        refine ⟨b, rfl, ?_, ?_⟩
        · have : b.status ≠ .current := by intro h; simp [h] at h3
          simp only [this, if_false] at h3
          simp [StopEntry.isCall, h3]
          exact ⟨by omega, h2⟩
        · intro i c hlt hic
          refine Classical.byContradiction fun hcon => ?_
          simp only [Bool.not_eq_false, Bool.and_eq_true, Bool.or_eq_true, decide_eq_true_eq] at hcon
          have := hl i { c with status := r.reached x jumped i c } hlt (by rw [Route.entry_preReach, hic]; rfl)
          have h' : selectable (r.preReach x jumped).pastEnd (i, { c with status := r.reached x jumped i c }) = true := by
            rw [selectable_iff, hpe, habove i c hcon.1.1]
            refine ⟨by omega, by simpa [StopEntry.isCall] using hcon.1.2, ?_⟩
            rcases hcon.2 with h | h <;> simp [h]
          rw [h'] at this; cases this
  · intro i a ha hst
    rw [Route.entry_preReach] at ha
    cases hi : r.entry i with
    | none => simp [hi] at ha
    | some b =>
      simp [hi] at ha; subst ha
      have hst' : r.reached x jumped i b = .target := hst
      have hb : b.status = .target ∧ i ≠ x := by
        unfold Route.reached at hst'
        split at hst'
        · cases hst'
        · next hne =>
          split at hst'
          · cases hst'
          · split at hst'
            · cases hst'
            · split at hst'
              · cases hst'
              · exact ⟨hst', hne⟩
      obtain ⟨hk, hcase⟩ := ht i b hi hb.1
      rw [selectable_iff, hpe]
      refine ⟨?_, hk, .inr hst⟩
      rcases hcase with h | h | ⟨hj, h1, h2⟩
      · exact absurd h hb.2
      · omega
      · exfalso
        unfold Route.reached at hst'
        rw [if_neg (by omega), if_neg (by simp [hb.1]), if_pos ⟨hj, h1, h2, hk, .inr hb.1⟩] at hst'
        cases hst'

/-- The CURRENT after a stop reached is that stop (R14, step 4). -/
theorem Route.current_reach (r : Route) (x : Nat) (e : StopEntry) (jumped : Bool) (he : r.entry x = some e)
    (hc : e.kind = .call) (hp : r.pastEnd ≤ x + 1) : (r.reach x jumped).current = some x := by
  have hpe := r.pastEnd_preReach x e jumped he hc hp
  have hnsel : ∀ t, (r.preReach x jumped).selection = some t → x < t := by
    intro t ht
    obtain ⟨a, _, hs, _⟩ := (Route.selection_some _ t).mp ht
    rw [selectable_iff, hpe] at hs; omega
  rw [Route.reach_eq]
  refine Route.current_eq _ x { e with status := .current } ?_ rfl ?_
  · rw [Route.entry_select, Route.entry_preReach, he]
    simp only [Option.map_some, Option.some.injEq]
    rw [if_neg (by intro h; have := hnsel x h.symm; omega)]
    simp [Route.reached]
  · intro i a ha hst
    rw [Route.entry_select, Route.entry_preReach] at ha
    cases hi : r.entry i with
    | none => simp [hi] at ha
    | some b =>
      simp [hi] at ha; subst ha
      simp only at hst
      refine Classical.byContradiction fun hne => ?_
      split at hst
      · cases hst
      · split at hst
        · cases hst
        · unfold Route.reached at hst
          rw [if_neg hne] at hst
          (repeat' split at hst) <;> first | cases hst | contradiction

end Sys2Proof.Machine
end

