-- ==== Sys2Proof/Tests/Slice0.lean ====
section
/-! SUPPORT. Tests of the model, and a concrete state for the hypotheses of each statement that has some. -/

namespace Sys2Proof.Tests

open Sys2Proof.Machine

/-! ### Small states -/

/-- A calling stop `code` at a post in metres, due at 10:00. -/
def stopAt (code post : Nat) (st : Status) : StopEntry :=
  { code := code, kind := .call, post := post, arr := some 600, dep := some 602, side := .left, mask := 0xF
    textBase := code, status := st }

/-- A timing point. -/
def timingAt (code post : Nat) (st : Status) : StopEntry := { stopAt code post st with kind := .pass }

/-- A full table from its first entries. -/
def tableOf (es : List (Option StopEntry)) : List (Option StopEntry) := es ++ List.replicate (48 - es.length) none

/-- Three stops at 1, 2 and 3 km with some statuses. -/
def stops (a b c : Status) : List (Option StopEntry) :=
  tableOf [some (stopAt 1 1000 a), some (stopAt 2 2000 b), some (stopAt 3 3000 c)]

def early : Route := { table := stops .target .ahead .ahead, progress := .preJourney }
def atStop : Route := { table := stops .current .target .ahead, progress := .standing }
def running : Route := { table := stops .passed .target .ahead, progress := .running }
def finished : Route := { table := stops .passed .passed .current, progress := .ended }
def halted : Route := { running with progress := .halted }

/-- An Aperture Map with every aperture present and the open region posted. -/
def someMap : Apertures :=
  { route := { base := 100, len := 48 }, reservation := { base := 200, len := 4 }, message := { base := 300, len := 2 }
    ack := { base := 400, len := 1 }, report := { base := 410, len := 6 }, seatLabel := { base := 500, len := 2 }
    routeStrip := { base := 600, len := 48 }, bannerWindow := { base := 700, len := 8 }
    routeWindow := { base := 710, len := 12 }, text := { base := 800, len := 16 }, openPosted := true }

/-- The part ACTIVE with a route, nothing else under way. -/
def act (r : Route) : State :=
  { pins := { reset := false }, loader := { part := .active }, router := { map := someMap }, route := r }

/-- The part ACTIVE with a record at the head of the Intake Queue. -/
def withHead (r : Route) (n : Nat) (x : Contents) : State :=
  { act r with intake := { queue := [{ slot := n, contents := x }] } }

/-- The part ACTIVE with a message at the head of the Intake Queue. -/
def withMsg (r : Route) (m : Message) : State := withHead r 0 (.message m)

/-- The position in metres. -/
def atM (s : State) (m : Nat) : State := { s with odo := { s.odo with position := m * 1000 } }

/-- The state a command leaves, the state before it where it leaves none. -/
def after (c : Instr) (s : State) : State :=
  match exec c s with
  | .next t => t
  | .fault _ => s
  | .refused _ => s

/-! ### The laws on small states -/

/-- The Route Table's law as a test. -/
def lawCheck (r : Route) : Bool :=
  decide (r.table.length = 48) && decide (r.entries.Pairwise fun a b => a.2.post < b.2.post)
    && r.entries.all (fun q => decide (q.2.kind = .call) || decide (q.2.status = .ahead) || decide (q.2.status = .passed)
        || decide (q.2.status = .notServed))
    && decide ((r.entries.filter fun q => decide (q.2.status = .current)).length ≤ 1)
    && decide ((r.entries.filter fun q => decide (q.2.status = .target)).length ≤ 1)
    && r.target.all (fun t => decide (r.pastEnd ≤ t))
    && (!decide (r.progress = .noRoute) || r.entries.all fun q => decide (q.2.kind = .pass))
    && (!decide (r.progress = .preJourney) || decide (r.current = none))
    && r.lastMissed.all (fun x => decide (r.pastEnd = x + 1))
    && (!(decide (r.progress = .noRoute) || decide (r.progress = .preJourney)) || decide (r.lastMissed = none))
    && (!decide (r.progress = .standing) || decide (r.current ≠ none))
    && (!r.progress.moving || decide (r.target ≠ none))

theorem law_of_check {r : Route} (h : lawCheck r = true) : RouteLaw r := by
  simp only [lawCheck, Bool.and_eq_true, Bool.or_eq_true, Bool.not_eq_true', decide_eq_true_eq, decide_eq_false_iff_not,
    List.all_eq_true, Bool.or_eq_false_iff] at h
  obtain ⟨⟨⟨⟨⟨⟨⟨⟨⟨⟨⟨h1, h2⟩, h3⟩, h4⟩, h5⟩, h6⟩, h7⟩, h8⟩, h9⟩, h10⟩, h11⟩, h12⟩ := h
  refine ⟨h1, h2, ?_, h4, h5, ?_, ?_, ?_, ?_, ?_, ?_, ?_⟩
  · intro q hq hk
    rcases h3 q hq with ((h | h) | h) | h
    · rw [hk] at h; cases h
    · exact .inl h
    · exact .inr (.inl h)
    · exact .inr (.inr h)
  · intro t ht; rw [ht] at h6; simpa using h6
  · intro hp q hq
    rcases h7 with h | h
    · exact absurd hp h
    · exact h q hq
  · intro hp; exact h8.resolve_left fun h => h hp
  · intro x hx; rw [hx] at h9; simpa using h9
  · intro hp
    refine h10.resolve_left fun h => ?_
    rcases hp with hp | hp
    · exact h.1 hp
    · exact h.2 hp
  · intro hp; exact h11.resolve_left fun h => h hp
  · intro hp; exact h12.resolve_left fun h => by rw [hp] at h; cases h

theorem law_early : RouteLaw early := law_of_check (by decide)
theorem law_atStop : RouteLaw atStop := law_of_check (by decide)
theorem law_running : RouteLaw running := law_of_check (by decide)
theorem law_finished : RouteLaw finished := law_of_check (by decide)
theorem law_halted : RouteLaw halted := law_of_check (by decide)

/-- A property of every slot's entry, from the entries listed. -/
theorem of_entries {r : Route} {P : Nat → StopEntry → Prop} (h : ∀ q ∈ r.entries, P q.1 q.2) (i : Nat) (e : StopEntry)
    (he : r.entry i = some e) : P i e := h (i, e) ((r.mem_entries i e).mpr he)

/-! ### Well-formedness: one ill-formed transfer for each check (R121), and the words of the table -/

/-- A read of a whole line by the coach computer. -/
def wholeRead : Transfer := { port := .coach, write := false, line := 5, first := 0, count := 8, words := [], lock := false }

/-- A write of one word with all lanes by the coach computer. -/
def oneWrite (line first : Nat) (w : Word) : Transfer :=
  { port := .coach, write := true, line := line, first := first, count := 1, words := [{ data := w, lanes := 15 }], lock := false }

theorem test_wf_read : (Instr.transferArrival wholeRead).wf = true := by decide
theorem test_wf_line : (Instr.transferArrival { wholeRead with line := 2097152 }).wf = false := by decide
theorem test_wf_line_top : (Instr.transferArrival { wholeRead with line := 2097151 }).wf = true := by decide
theorem test_wf_first : (Instr.transferArrival { wholeRead with first := 8 }).wf = false := by decide
theorem test_wf_count_zero : (Instr.transferArrival { wholeRead with count := 0 }).wf = false := by decide
theorem test_wf_count_nine : (Instr.transferArrival { wholeRead with count := 9 }).wf = false := by decide
theorem test_wf_words : (Instr.transferArrival { wholeRead with write := true }).wf = false := by decide
theorem test_wf_panel_lock : (Instr.transferArrival { wholeRead with port := .panel, lock := true }).wf = false := by decide
theorem test_no_word_spells : (decodeTableWord 8 0 = none) ∧ (State.reset.withFetchWord 8 0 = State.reset) := by decide

/-! ### One step of each command, the expected values worked out from the rules -/

/-- RESET in the middle of a journey: no route is left (R26), the door filter is back at closed (R11). -/
theorem test_reset_asserted :
    (after .resetAsserted (act running)).route.entry 1 = none ∧ (after .resetAsserted (act running)).pins.reset = true := by
  decide

/-- PSEL1 = 1, PSEL0 = 0 chooses byte address 0x2000000, line 0x100000 (R173). -/
theorem test_reset_released : (after (.resetReleased true false) State.reset).loader.base = 0x100000 := by decide

/-- Door release 400 m before the stop at 2 km reaches it: slot 1 CURRENT, slot 2 TARGET (R12, R14). -/
theorem test_door_release_reaches :
    (after .doorReleaseAcceptance (atM (act running) 1600)).route.current = some 1
      ∧ (after .doorReleaseAcceptance (atM (act running) 1600)).route.target = some 2 := by decide

/-- One metre earlier it is an unplanned stop (R12): HALTED, factor 3, counter 8. -/
theorem test_door_release_halts :
    (after .doorReleaseAcceptance (atM (act running) 1599)).route.progress = .halted
      ∧ (after .doorReleaseAcceptance (atM (act running) 1599)).report.counters.getD 8 0 = 1 := by decide

/-- A state with the door level released. -/
def released (s : State) : State := { s with odo := { s.odo with doorLevel := true } }

theorem test_door_closed_sets_flag :
    (after .doorClosedAcceptance (released (act atStop))).route.departFlag = true := by decide

/-- HALTED at 1.7 km, 300 m before the TARGET: ARRIVING (R13, R17). -/
theorem test_door_closed_ends_halt :
    (after .doorClosedAcceptance (released (atM (act halted) 1700))).route.progress = .arriving := by decide

/-- The filter at the old level of the line. -/
def wheelLow (s : State) : State := { s with odo := { s.odo with wheelLevel := some false } }

/-- The default pulse size is 157,080 µm: 157 mm and a remainder of 80 µm (R27, R29). -/
theorem test_pulse :
    (after .pulse (wheelLow (act running))).odo.position = 157 ∧ (after .pulse (wheelLow (act running))).odo.remUm = 80 := by decide

/-- A second pulse, once the line has returned: 314,160 µm in all (R28, R29). -/
theorem test_pulse_again :
    (after .pulse (after .pulse (wheelLow (act running)))).odo.position = 314
      ∧ (after .pulse (after .pulse (wheelLow (act running)))).odo.remUm = 160 := by decide

/-- From the first level sampled after reset no edge is accepted; the filter follows the line (R41). -/
theorem test_pulse_first_level :
    (after .pulse (act running)).odo.position = 0 ∧ (after .pulse (act running)).odo.wheelLevel = some true := by decide

theorem test_pulse_departs :
    (after .pulse (wheelLow (act { atStop with departFlag := true }))).route.progress = .departed := by decide

/-- A noise width of 2 ms. -/
def noisy (s : State) : State := { s with loader := { s.loader with profile := { params := { noise := 2 } } } }

/-- PULSE_REJECTED is counter 11 (R161). -/
theorem test_pulse_rejected :
    (after .pulseRejected (noisy (wheelLow (act running)))).report.counters.getD 11 0 = 1 := by decide

/-- Four windows of 8, 8, 8 and 16 m: a mean of 10 m a second, 36 km/h (R30, R31). -/
theorem test_window_end_speed :
    (after .windowEnd { act atStop with odo := { ring := [0, 8000, 8000, 8000], winDist := 16000 } }).odo.speed = 10000
      ∧ (after .windowEnd { act atStop with odo := { ring := [0, 8000, 8000, 8000], winDist := 16000 } }).odo.repSpeed = 360 := by
  decide

/-- The stop at 2 km passed by 1,500 m is MISSED and the one at 3 km is TARGET (R16, R27). -/
theorem test_window_end_misses :
    (after .windowEnd (atM (act running) 3500)).route.target = some 2
      ∧ (after .windowEnd (atM (act running) 3500)).route.lastMissed = some 1 := by decide

theorem test_clock_midnight : (after .clockAdvance (act { atStop with clock := some 1439 })).route.clock = some 0 := by decide

/-- A coach computer notice. -/
def note (id prio : Nat) (ex : Expiry) (sh : Bool) : Notice :=
  { id := id, cls := .info, priority := prio, text := 0, dwell := 300, expiry := ex, chime := false, shown := sh, auto := none }

/-- The part ACTIVE with some notices. -/
def withNotes (r : Route) (q : List Notice) : State :=
  { act r with notices := { queue := q, mark := (q.head?).map (·.id), dwell := 1 } }

/-- The last showing ends: the entry leaves and the other is SHOWN (R77, R79). -/
theorem test_dwell_expiry :
    (after .dwellExpiry (withNotes atStop [note 1 1 (.showCount 1) true, note 2 1 .untilCancel false])).notices.queue
      = [note 2 1 .untilCancel true] := by decide

theorem test_chime_ends :
    (after .chimePulseEnd { act atStop with notices := { chimeTimer := some 3 } }).chime = false := by decide

/-- A banner latch. -/
def bannerLatched : State := { act atStop with windows := { bannerLatch := some { target := some 800, timer := 1 } } }

/-- REMAP_LATCH_TIMEOUT is counter 12 (R161). -/
theorem test_latch_timeout :
    (after (.remapLatchTimeout .banner) bannerLatched).windows.bannerLatch = none
      ∧ (after (.remapLatchTimeout .banner) bannerLatched).report.counters.getD 12 0 = 1 := by decide

/-- LOCK_BROKEN is factor 11, LOCK_IDLE counter 13 (R161, R182). -/
theorem test_lock_idle :
    (after .lockIdleExpiry { act atStop with arb := { locked := true, count := 3, idle := some 1 } }).arb.locked = false
      ∧ (after .lockIdleExpiry { act atStop with arb := { locked := true, count := 3, idle := some 1 } }).report.counters.getD 13 0
        = 1 := by decide

/-- k = 7 and j = 5: from count 100 the next toggle is at 128, of both (R116). -/
theorem test_phase_toggle :
    (after .phaseToggle { act atStop with phase := { tick := 100 } }).phase.plane = true
      ∧ (after .phaseToggle { act atStop with phase := { tick := 100 } }).phase.blink = false := by decide

/-- A read past word 7 is answered FAULT (R122). -/
theorem test_arrival_fault :
    (after (.transferArrival { wholeRead with first := 1 }) (act atStop)).router.coachAnswer = some .fault := by decide

/-- A transfer that waits for its take-up at the coach computer port. -/
def atCoach (t : Transfer) : CoachTx := { t := t, moment := .arrived, kind := .write, req := reqAt t t.line }

/-- The part ACTIVE with an arrived coach computer transfer. -/
def withCoach (t : Transfer) : State := { act atStop with router := { map := someMap, coach := some (atCoach t) } }

/-- A held line of REPORT, all words 7. -/
def heldLine : Entry := { line := 415, whole := true, data := List.replicate 8 7, writing := false, succ := none }

/-- A fully covered read is answered from the Line Store (R100). -/
theorem test_coach_read_covered :
    (after .coachRead { withCoach { wholeRead with line := 415 } with store := [heldLine] }).router.coachAnswer
      = some (.done (List.replicate 8 7)) := by decide

/-- A write of a held word is merged (R102). -/
theorem test_coach_write_merged :
    ((after .coachWrite { withCoach (oneWrite 415 2 9) with store := [heldLine] }).store.map fun e => e.data.getD 2 0) = [9] := by
  decide

/-- A write of words the entry does not hold only passes: an entry under way gets no successor (R102, R103). -/
theorem test_coach_write_passes :
    ((after .coachWrite { withCoach (oneWrite 600 4 9) with
        store := [{ line := 600, whole := false, data := [1, 2, 3, 4], writing := true, succ := none }] }).store.map
      (·.succ)) = [none] := by decide

theorem test_posted_write : (after .postedWrite (withCoach (oneWrite 5 2 9))).router.posts.map (·.line) = [5] := by decide

/-- A write of word 7 of line 3 of ROUTE is a commit of slot 3 (R127, R128). -/
theorem test_commit : (after .commit (withCoach (oneWrite 103 7 0))).router.commit.map (·.slot) = some 3 := by decide

/-- A panel read that waits for its take-up. -/
def withPanel (t : Transfer) : State :=
  { act atStop with router :=
      { map := someMap
        panel := some { t := t, moment := .arrived, posts := 0, req := reqAt t t.line, overlay := false, frees := none } } }

/-- Offset 0 of the banner window with no target: zero words, latched (R109, R113). -/
theorem test_panel_read_banner :
    (after .panelRead (withPanel { wholeRead with port := .panel, line := 700 })).router.panelAnswer
      = some (.done (List.replicate 8 0)) := by decide

/-- Offset 1 of the route window with CURRENT in slot 0: line 601 of ROUTE_STRIP (R110, R111). -/
theorem test_panel_read_route :
    (after .panelRead (withPanel { wholeRead with port := .panel, line := 711 })).router.panel.map (·.req.line) = some 601 := by
  decide

/-- The grant of a coach computer read (R140). -/
theorem test_grant :
    ((after .grant (after .coachRead (withCoach wholeRead))).arb.port.map (·.owner)) = some .coach := by decide

/-- A write's answer reaches memory in its lanes: byte address 5 × 32 + 2 × 4 (R121, R135). -/
theorem test_passing_answer :
    (after (.passingTransferAnswer true)
      (after .grant (after .coachWrite (withCoach { oneWrite 5 2 9 with lock := true })))).mem = [(168, 9)] := by decide

theorem test_post_answer_fault :
    (after (.postAnswer false) (after .grant (after .postedWrite (withCoach (oneWrite 5 2 9))))).report.has .postedFault = true := by
  decide

/-- A commit's write at the port. -/
def commitGranted : State := after .grant (after .commit (withCoach { oneWrite 103 7 3 with lock := true }))

theorem test_commit_write_answer :
    ((after (.commitWriteAnswer true) commitGranted).router.commit.map (·.fetching)) = some true := by decide

/-- The fetched record has kind 3, EMPTY (R184), and joins the queue. -/
theorem test_commit_fetch_answer :
    (after (.commitFetchAnswer true) (after .grant (after (.commitWriteAnswer true) commitGranted))).intake.queue
      = [{ slot := 3, contents := .routeEmpty }] := by decide

/-- A FAULT on a profile line makes the part PASSIVE (R174, R178). -/
theorem test_profile_line_fault :
    (after (.profileLineReadAnswer false) (after .grant (after (.resetReleased false false) State.reset))).loader.part = .passive := by
  decide

theorem test_writeback :
    (after (.writebackCompletion true) (after .grant { act atStop with store := [heldLine] })).store = [] := by decide

/-- An acknowledge write of bit 0 clears STAGE and leaves STOP_REACHED (R162, R182). -/
theorem test_ack_write :
    (after .ackWrite (after .grant (after .coachWrite
      { withCoach (oneWrite 400 0 1) with report := { factors := 3 } }))).report.factors = 2 := by decide

/-- In PASSIVE no ACK_WRITE is handed, for a write taken up before it either (R136, R163, R178; log 32). -/
theorem test_ack_write_passive :
    (after .ackWrite { after .grant (after .coachWrite { withCoach (oneWrite 400 0 1) with report := { factors := 3 } }) with
      loader := { part := .passive } }).report.factors = 3 := by decide

/-- The apply flag of the Profile Block's last word starts RELOADING (R130, R179). -/
theorem test_profile_commit :
    (after .profileCommit (after .grant (after .coachWrite (withCoach (oneWrite 3 7 1))))).loader.part = .reloading := by decide

/-- The fields of a calling stop. -/
def stopFields (code post : Nat) : RouteFields :=
  { kind := .call, code := code, post := post, arr := none, dep := none, side := .right, mask := 1, textBase := 0 }

/-- The first calling stop makes NO_ROUTE PRE_JOURNEY with it as TARGET (R5, R7). -/
theorem test_route_record :
    (after .routeRecord (withHead { table := tableOf [] } 4 (.route (stopFields 9 500)))).route.progress = .preJourney
      ∧ (after .routeRecord (withHead { table := tableOf [] } 4 (.route (stopFields 9 500)))).route.target = some 4 := by decide

/-- A record that changes nothing its strip line shows still makes that line, 602, pending: it is taken at once (R5, R88). -/
theorem test_route_record_line :
    602 ∈ (after .routeRecord (withHead running 2 (.route
      { kind := .call, code := 3, post := 3001, arr := some 600, dep := some 602, side := .left, mask := 0xF
        textBase := 3 }))).store.map (·.line) := by decide

/-- A post not above the one before it is refused with ORDER (R5). -/
theorem test_route_record_order :
    (after .routeRecord (withHead atStop 3 (.route (stopFields 9 3000)))).report.lastBad = some (.order, .route, 3) := by decide

theorem test_route_record_empty : (after .routeRecordEmpty (withHead atStop 2 .routeEmpty)).route.entry 2 = none := by decide

theorem test_reservation_record :
    (after .reservationRecord (withHead atStop 7 (.reserve 1 2 3 .standard none))).seats.slot 7
      = some { seat := 1, fromCode := 2, toCode := 3, kind := .standard, text := none, boundFrom := some 1, boundTo := some 2 } := by
  decide

/-- A reservation of seat 1 from stop 2 to stop 3. -/
def resv (seat : Nat) (k : ResKind) : Reservation :=
  { seat := seat, fromCode := 2, toCode := 3, kind := k, text := none, boundFrom := some 1, boundTo := some 2 }

theorem test_void :
    (after .void { withHead atStop 7 .void with seats := { pool := [(7, resv 1 .standard)] } }).seats.pool = [] := by decide

/-- A fix by more than 200 m is a jump (R27, R33). -/
theorem test_position_fix :
    (after .positionFix (withMsg running (.positionFix 201))).report.has .fixJump = true
      ∧ (after .positionFix (withMsg running (.positionFix 200))).report.has .fixJump = false := by decide

/-- STOP_CALLED beyond the TARGET: the stop between is MISSED, and the position is the post (R18, R33). -/
theorem test_stop_called_beyond :
    (after .stopCalled (withMsg running (.stopCalled 3))).route.current = some 2
      ∧ ((after .stopCalled (withMsg running (.stopCalled 3))).route.entry 1).map (·.status) = some .missed := by decide

theorem test_stop_called_unknown :
    (after .stopCalled (withMsg running (.stopCalled 9))).report.lastBad = some (.noStop, .message, 0) := by decide

theorem test_stop_skipped : (after .stopSkipped (withMsg running (.stopSkipped 2))).route.target = some 2 := by decide

/-- A SKIPPED stop at 2 km is TARGET again while it lies ahead, and PAST once it does not (R20). -/
theorem test_stop_restored :
    (after .stopRestored (withMsg { running with table := stops .passed .skipped .target } (.stopRestored 2))).route.target = some 1 := by
  decide

theorem test_stop_restored_behind :
    (after .stopRestored (atM (withMsg { running with table := stops .passed .skipped .target } (.stopRestored 2)) 2000)).report.lastBad
      = some (.past, .message, 0) := by decide

theorem test_depart : (after .depart (withMsg atStop .depart)).route.progress = .departed := by decide
theorem test_depart_final : (after .depart (withMsg { finished with progress := .standing } .depart)).route.progress = .ended := by decide

theorem test_delay : (after .delay (withMsg running (.delay 5))).route.delay = 5 := by decide
theorem test_clock_unset : (after .clock (withMsg { running with clock := some 5 } (.clock none))).route.clock = none := by decide

/-- A portion that the TARGET's mask excludes makes it NOT_SERVED (R8). -/
theorem test_portion_set :
    (after .portionSet (withMsg { running with table := tableOf [some (stopAt 1 1000 .passed),
      some { stopAt 2 2000 .target with mask := 1 }, some (stopAt 3 3000 .ahead)] } (.portionSet 2))).route.target = some 2 := by decide

theorem test_orientation : (after .orientation (withMsg running (.orientation true))).windows.reversed = true := by decide

/-- The arguments of a notice. -/
def args (id prio : Nat) (cls : NClass) : NoticeArgs :=
  { id := id, cls := cls, priority := prio, text := 0, dwell := 0, expiry := .untilCancel, chime := false }

/-- The first notice of a journey is SHOWN at once, with the default dwell of 500 ticks (R69, R76, R78). -/
theorem test_notice_add :
    (after .noticeAdd (withMsg atStop (.noticeAdd (args 4 1 .info)))).notices.shownEntry.map (·.id) = some 4
      ∧ (after .noticeAdd (withMsg atStop (.noticeAdd (args 4 1 .info)))).notices.dwell = 500 := by decide

theorem test_notice_cancel_auto :
    (after .noticeCancel (withMsg atStop (.noticeCancel 255))).report.lastBad = some (.noNotice, .message, 0) := by decide

/-- The clock, the portion and the orientation survive a journey reset (R26, R180). -/
theorem test_journey_reset :
    (after .journeyReset (withMsg { running with clock := some 7, portion := 2 } .journeyReset)).route.clock = some 7
      ∧ (after .journeyReset (withMsg { running with clock := some 7, portion := 2 } .journeyReset)).route.progress = .noRoute := by
  decide

/-- A write presented when RESET was asserted still reaches memory, whatever the answer that is not taken (R138, R148). -/
theorem test_presented_finishes :
    (after (.presentedTransferFinished false) (after .resetAsserted
      (after .grant (after .coachWrite (withCoach { oneWrite 5 2 9 with lock := true }))))).mem = [(168, 9)] := by decide

/-- With no command waiting a step is one tick: the window timer moves (log 7). -/
theorem test_step_tick :
    (match step (act atStop) with
      | .next t => t.odo.winTimer
      | .fault _ => 0
      | .refused _ => 0) = 1 := by decide

/-! ### A concrete state for the hypotheses of each statement, at the boundary where a clause has one

Each theorem is named after its statement and lists that statement's hypotheses on one state (or one for each clause). -/

/-- DOOR released and seen so for four ticks; and a phase tick count one before a toggle. -/
def doorMoved : State := { act running with pins := { reset := false, door := true }, odo := { doorCount := 4 } }
def beforeToggle : State := { act running with phase := { tick := 127 } }

/-- RESET asserted; no event due; one due alone; and a toggle due alone. -/
theorem wit_EmptyQueueTakesOneTick :
    (State.reset.pending = [] ∧ State.reset.pins.reset = true)
    ∧ ((act running).pending = [] ∧ (act running).pins.reset = false ∧ ∀ c, ¬ (act running).oneTick.Due c)
    ∧ (doorMoved.pending = [] ∧ doorMoved.pins.reset = false ∧ doorMoved.oneTick.Due .doorReleaseAcceptance
      ∧ (∀ c, doorMoved.oneTick.Due c → c = .doorReleaseAcceptance) ∧ Instr.doorReleaseAcceptance ≠ .phaseToggle)
    ∧ (beforeToggle.pending = [] ∧ beforeToggle.pins.reset = false ∧ beforeToggle.oneTick.Due .phaseToggle
      ∧ (∀ c, beforeToggle.oneTick.Due c → c = .phaseToggle) ∧ beforeToggle.phase.tick < 512
      ∧ beforeToggle.params.planeExp ≤ 9 ∧ beforeToggle.params.blinkExp ≤ 9) := by
  refine ⟨by decide, ⟨by decide, by decide, fun c h => ?_⟩,
    ⟨by decide, by decide, by simp only [State.Due]; decide, fun c h => ?_, by decide⟩,
    by decide, by decide, by simp only [State.Due]; decide, fun c h => ?_, by decide⟩
  all_goals
    cases c with
    | remapLatchTimeout w => obtain ⟨_, l, h, _⟩ := h; cases w <;> cases h
    | _ => simp only [State.Due] at h <;> first | rfl | exact absurd h (by decide)

theorem wit_ResetReleasedBeginsFetch : State.reset.pins.reset = true := by decide

/-- The boundary of the arrive distance, 400 m before the stop, and PRE_JOURNEY; with the Arrival line EMPTY and FRESH. -/
theorem wit_DoorReleaseReachesTarget :
    (RouteLaw running ∧ (atM (act running) 1600).active = true ∧ (atM (act running) 1600).odo.doorLevel = false
      ∧ running.target = some 1 ∧ running.entry 1 = some (stopAt 2 2000 .target) ∧ running.progress.moving = true
      ∧ (stopAt 2 2000 .target).postMm - (atM (act running) 1600).odo.position
          = (act running).params.arriveM * 1000)
    ∧ (RouteLaw early ∧ (act early).active = true ∧ (act early).odo.doorLevel = false ∧ early.target = some 0
      ∧ early.entry 0 = some (stopAt 1 1000 .target) ∧ early.progress = .preJourney)
    ∧ 3 < (act early).router.map.report.len ∧ (act early).report.arrival.fresh = false
    ∧ ({ act early with report := { arrival := { fresh := true } } } : State).report.arrival.fresh = true :=
  ⟨⟨law_running, by decide⟩, ⟨law_early, by decide⟩, by decide⟩

/-- The part RELOADING in the middle of a journey. -/
def reloading : State := { act running with loader := { part := .reloading } }

/-- One metre beyond the arrive distance; each state without a stop to reach; and a part that is not ACTIVE. -/
theorem wit_DoorReleaseHaltsOrIdles :
    ((atM (act running) 1599).active = true ∧ (atM (act running) 1599).odo.doorLevel = false ∧ running.target = some 1
      ∧ running.entry 1 = some (stopAt 2 2000 .target) ∧ running.progress.moving = true
      ∧ (act running).params.arriveM * 1000 < (stopAt 2 2000 .target).postMm - (atM (act running) 1599).odo.position)
    ∧ ((act atStop).active = true ∧ (act atStop).odo.doorLevel = false ∧ atStop.progress = .standing)
    ∧ (act halted).route.progress = .halted ∧ (act finished).route.progress = .ended
    ∧ (act {}).route.progress = .noRoute
    ∧ (act { early with table := stops .skipped .skipped .skipped }).route.progress = .preJourney
    ∧ (act { early with table := stops .skipped .skipped .skipped }).route.target = none
    ∧ (reloading.pins.reset = false ∧ reloading.active = false ∧ reloading.odo.doorLevel = false) := by decide

theorem wit_DoorClosedActsByState :
    (released (act halted)).active = true ∧ (released (act halted)).odo.doorLevel = true ∧ halted.progress = .halted
      ∧ (released (act { finished with progress := .halted })).active = true
      ∧ (released (act { finished with progress := .halted })).route.target = none
      ∧ (released (act atStop)).active = true ∧ atStop.progress = .standing
      ∧ (released (act running)).active = true ∧ running.progress ≠ .halted
      ∧ (released reloading).pins.reset = false ∧ (released reloading).active = false
      ∧ (released reloading).odo.doorLevel = true := by decide

/-- The line at its old level; and, after a pulse, at its new one. -/
theorem wit_PulseAddsDistance :
    (wheelLow (act running)).active = true ∧ (wheelLow (act running)).odo.doorLevel = false
      ∧ (wheelLow (act running)).odo.wheelLevel = some false
      ∧ ¬ ((wheelLow (act running)).route.progress = .standing ∧ (wheelLow (act running)).route.departFlag = true)
      ∧ (after .pulse (wheelLow (act running))).active = true ∧ (after .pulse (wheelLow (act running))).odo.doorLevel = false
      ∧ (after .pulse (wheelLow (act running))).odo.wheelLevel = some true := by decide

/-- Doors released; a noise width; the first level after reset, and a part that is not ACTIVE; the line not back. -/
theorem wit_PulseDiscardedOrRejected :
    ((released (wheelLow (act running))).active = true ∧ (released (wheelLow (act running))).odo.doorLevel = true
        ∧ (released (wheelLow (act running))).odo.wheelLevel ≠ none)
      ∧ ((noisy (wheelLow (act running))).active = true ∧ (noisy (wheelLow (act running))).params.noise ≠ 0
        ∧ (noisy (wheelLow (act running))).odo.wheelLevel ≠ none)
      ∧ ((noisy (act running)).pins.reset = false ∧ (noisy (act running)).odo.wheelLevel = none)
      ∧ (reloading.pins.reset = false ∧ reloading.active = false)
      ∧ ((noisy (after .pulse (act running))).active = true ∧ (noisy (after .pulse (act running))).params.noise ≠ 0
        ∧ (noisy (after .pulse (act running))).odo.wheelLevel ≠ none) := by decide

/-- The Notice Queue's law for a queue that a test names, with no NOTICE_ADD waiting. -/
theorem notice_law (s : State) (h1 : (s.notices.queue.map (·.id)).Nodup)
    (h2 : (s.notices.queue.filter Notice.fromCoach).length ≤ 15)
    (h3 : ∀ e ∈ s.notices.queue, (e.cls = .auto ↔ e.id = 255)) (h4 : (s.notices.queue.filter (·.shown)).length ≤ 1)
    (h5 : s.intake.queue = []) : NoticeLaw s :=
  ⟨h1, h2, h3, h4, fun x hx => by rw [h5] at hx; cases hx⟩

/-- Notices until the departure from stop 1 and from stop 2, at stop 1 with the departure flag. -/
def leaving : State :=
  wheelLow (withNotes { atStop with departFlag := true }
    [note 1 1 (.untilDepart 1) true, note 2 1 (.untilDepart 2) false])

theorem wit_CoachDeparts :
    (leaving.active = true ∧ leaving.route.progress = .standing ∧ leaving.route.current = some 0
      ∧ leaving.odo.wheelLevel ≠ none ∧ leaving.odo.doorLevel = false ∧ leaving.route.departFlag = true ∧ leaving.route.codeAt 0 = 1)
    ∧ ((withMsg atStop .depart).active = true ∧ (withMsg atStop .depart).head = some { slot := 0, contents := .message .depart })
    ∧ ((withMsg running .depart).head = some { slot := 0, contents := .message .depart } ∧ running.progress ≠ .standing)
    ∧ NoticeLaw leaving :=
  ⟨by decide, by decide, by decide, notice_law _ (by decide) (by decide) (by decide) (by decide) (by decide)⟩

/-- ENDED; HALTED; and PRE_JOURNEY one metre short of the depart distance. -/
theorem wit_WindowEndFigures :
    ((act running).active = true ∧ (act running).odo.ring = [0, 0, 0, 0])
      ∧ ((act finished).active = true ∧ (act finished).odo.ring = [0, 0, 0, 0] ∧ finished.progress.blank = true)
      ∧ ((act halted).active = true ∧ halted.progress.blank = false ∧ halted.progress.moving = false
        ∧ halted.progress ≠ .preJourney)
      ∧ ((atM (act early) 1799).odo.ring = [0, 0, 0, 0] ∧ early.progress.blank = false ∧ early.progress.moving = false
        ∧ early.targetEntry = some (stopAt 1 1000 .target)
        ∧ (atM (act early) 1799).odo.position < (stopAt 1 1000 .target).postMm + (act early).params.departM * 1000) := by decide

/-- One metre before the pass margin ends. -/
theorem wit_WindowEndEstimates :
    (atM (act running) 3499).active = true ∧ running.progress.moving = true
      ∧ running.targetEntry = some (stopAt 2 2000 .target)
      ∧ (atM (act running) 3499).odo.position < (stopAt 2 2000 .target).postMm + (act running).params.passMargin * 1000 := by
  decide

/-- At the pass margin. -/
theorem wit_WindowEndMissesTarget :
    RouteLaw running ∧ (atM (act running) 3500).active = true ∧ running.progress.moving = true ∧ running.target = some 1
      ∧ running.entry 1 = some (stopAt 2 2000 .target)
      ∧ (stopAt 2 2000 .target).postMm + (act running).params.passMargin * 1000 = (atM (act running) 3500).odo.position :=
  ⟨law_running, by decide⟩

/-- At the depart distance. -/
theorem wit_WindowEndLeavesPreJourney :
    RouteLaw early ∧ (atM (act early) 1800).active = true ∧ early.progress = .preJourney ∧ early.target = some 0
      ∧ early.entry 0 = some (stopAt 1 1000 .target)
      ∧ (stopAt 1 1000 .target).postMm + (act early).params.departM * 1000 = (atM (act early) 1800).odo.position :=
  ⟨law_early, by decide⟩

/-- A clock set and an estimate valid. -/
def timed : State :=
  { act { running with clock := some 1439 } with odo := { est := { value := 3, valid := true, held := false } } }

theorem wit_ExpectedTimesAtTarget :
    (act running).odo.est.valid = false ∧ (act running).route.clock = none
      ∧ timed.odo.est.valid = true ∧ timed.route.clock = some 1439 ∧ timed.expected = some 2
      ∧ timed.route.targetEntry = some (stopAt 2 2000 .target) ∧ (stopAt 2 2000 .target).arr = some 600
      ∧ timed.lateness = some (-598)
      ∧ timed.route.entry (if timed.route.reversed then 47 - 1 else 1) = some (stopAt 2 2000 .target)
      ∧ (act atStop).route.entry (if atStop.reversed then 47 - 0 else 0) = some (stopAt 1 1000 .current)
      ∧ (withNotes running [note 1 1 .untilCancel true]).notices.shownEntry = some (note 1 1 .untilCancel true)
      ∧ (withNotes running [note 1 1 .untilCancel true]).spokenStop (note 1 1 .untilCancel true) = running.target
      ∧ running.target ≠ none := by decide

theorem wit_ClockAdvancesOneMinute :
    (act { atStop with clock := some 1439 }).active = true ∧ (act { atStop with clock := some 1439 }).route.clock = some 1439
      ∧ (1439 : Nat) ≤ 1439 := by decide

/-- The last showing, a showing with another left, and an entry without a count. -/
theorem wit_DwellExpiryEndsShowing :
    (NoticeLaw (withNotes atStop [note 1 1 (.showCount 1) true, note 2 1 .untilCancel false])
      ∧ (withNotes atStop [note 1 1 (.showCount 1) true, note 2 1 .untilCancel false]).active = true
      ∧ (withNotes atStop [note 1 1 (.showCount 1) true, note 2 1 .untilCancel false]).notices.shownEntry
          = some (note 1 1 (.showCount 1) true)
      ∧ (withNotes atStop [note 1 1 (.showCount 1) true, note 2 1 .untilCancel false]).notices.queue
          = [] ++ note 1 1 (.showCount 1) true :: [note 2 1 .untilCancel false]
      ∧ (note 1 1 (.showCount 1) true).usedUp = true ∧ atStop.progress.blank = false)
    ∧ (NoticeLaw (withNotes finished [note 1 1 (.showCount 2) true])
      ∧ (withNotes finished [note 1 1 (.showCount 2) true]).notices.shownEntry = some (note 1 1 (.showCount 2) true)
      ∧ finished.progress.blank = true)
    ∧ (NoticeLaw (withNotes atStop [note 1 1 .untilCancel true])
      ∧ (withNotes atStop [note 1 1 .untilCancel true]).notices.shownEntry = some (note 1 1 .untilCancel true)
      ∧ (note 1 1 .untilCancel true).usedUp = false) :=
  ⟨⟨notice_law _ (by decide) (by decide) (by decide) (by decide) (by decide), by decide⟩,
    ⟨notice_law _ (by decide) (by decide) (by decide) (by decide) (by decide), by decide⟩,
    ⟨notice_law _ (by decide) (by decide) (by decide) (by decide) (by decide), by decide⟩⟩

theorem wit_TimersRunOut :
    ({ act atStop with notices := { chimeTimer := some 0 } } : State).chime = true
      ∧ (bannerLatched.mapped = true ∧ bannerLatched.windows.latch .banner = some { target := some 800, timer := 1 })
      ∧ (({ act atStop with arb := { locked := true, idle := some 1 } } : State).arb.locked = true
        ∧ ({ act atStop with arb := { locked := true, idle := some 1 } } : State).arb.idle = some 1) := by decide

/-- The last count before the wrap. -/
theorem wit_PhaseToggles :
    ({ act atStop with phase := { tick := 511 } } : State).active = true
      ∧ ({ act atStop with phase := { tick := 511 } } : State).phase.tick < 512
      ∧ 5 ≤ (act atStop).params.planeExp ∧ (act atStop).params.planeExp ≤ 9
      ∧ 3 ≤ (act atStop).params.blinkExp ∧ (act atStop).params.blinkExp ≤ 8 := by decide

/-! ### Transfers -/

/-- Each clause: a line too high, a form no transfer has, a refused form at its boundary, and a form that is held. -/
theorem wit_ArrivalRefusedOrHeld :
    2097151 < ({ wholeRead with line := 2097152 } : Transfer).line
      ∧ (({ wholeRead with count := 9 } : Transfer).line ≤ 2097151 ∧ ({ wholeRead with count := 9 } : Transfer).formOk = false)
      ∧ (wholeRead.line ≤ 2097151 ∧ wholeRead.formOk = true ∧ (act atStop).portBusy wholeRead.port = false
        ∧ ¬ 8 < wholeRead.first + wholeRead.count ∧ ((act atStop).windowAt wholeRead.line).isSome = false)
      ∧ (({ wholeRead with first := 1 } : Transfer).formOk = true
        ∧ 8 < ({ wholeRead with first := 1 } : Transfer).first + ({ wholeRead with first := 1 } : Transfer).count)
      ∧ ((oneWrite 700 0 0).formOk = true ∧ ((act atStop).windowAt 700).isSome = true) := by decide

/-- A window with no target, a whole held line, and a line that is not held. -/
theorem wit_CoachReadAnsweredOrAsks :
    ((withCoach { wholeRead with line := 700 }).router.coach = some (atCoach { wholeRead with line := 700 })
      ∧ (withCoach { wholeRead with line := 700 }).coachLine 700 = none)
    ∧ (({ withCoach { wholeRead with line := 415 } with store := [heldLine] } : State).coachLine 415 = some 415
      ∧ ({ withCoach { wholeRead with line := 415 } with store := [heldLine] } : State).mapped = true
      ∧ heldEntry [heldLine] 415 = some heldLine ∧ 0 + 8 ≤ heldLine.width)
    ∧ ((withCoach wholeRead).router.coach = some (atCoach wholeRead) ∧ (atCoach wholeRead).moment = .arrived
      ∧ wholeRead.write = false ∧ (withCoach wholeRead).router.posts = [] ∧ (withCoach wholeRead).coachLine 5 = some 5
      ∧ heldEntry (withCoach wholeRead).store 5 = none) := by decide

/-- A strip line held in words 0 to 3, and a write of word 3 (held) or of word 4 (not held). -/
def strip0 : Entry := { line := 600, whole := false, data := [1, 2, 3, 4], writing := false, succ := none }
def withStrip (t : Transfer) : State := { withCoach t with store := [strip0] }

theorem store_law_strip : StoreLaw [strip0] :=
  { atMost32 := by decide, oneALine := by decide, successor := (by decide), oneWrite := by decide }

theorem wit_CoachWriteMergedOrPassed :
    ((withStrip (oneWrite 600 3 9)).router.coach = some (atCoach (oneWrite 600 3 9)) ∧ (atCoach (oneWrite 600 3 9)).moment = .arrived
      ∧ (oneWrite 600 3 9).write = true ∧ (oneWrite 600 3 9).formOk = true ∧ (withStrip (oneWrite 600 3 9)).router.posts = []
      ∧ (withStrip (oneWrite 600 3 9)).isPosted (oneWrite 600 3 9) = false
      ∧ (withStrip (oneWrite 600 3 9)).commitKind (oneWrite 600 3 9) = none
      ∧ (withStrip (oneWrite 600 3 9)).windowAt 600 = none
      ∧ (withStrip (oneWrite 600 3 9)).heldCount (oneWrite 600 3 9) = 1
      ∧ (withStrip (oneWrite 600 3 9)).mapped = true ∧ heldEntry (withStrip (oneWrite 600 3 9)).store 600 = some strip0)
    ∧ (withStrip (oneWrite 600 4 9)).heldCount (oneWrite 600 4 9) = 0
    ∧ (withStrip (oneWrite 600 4 9)).isPosted (oneWrite 600 4 9) = false
    ∧ (withStrip (oneWrite 600 3 9)).quiet ∧ ¬ ((withStrip (oneWrite 600 3 9)).arb.locked = true
      ∧ 16 ≤ (withStrip (oneWrite 600 3 9)).arb.count)
    ∧ StoreLaw (withStrip (oneWrite 600 3 9)).store :=
  ⟨by decide, by decide, by decide, by unfold State.quiet; decide, by decide, store_law_strip⟩

/-- A write of words 3, held, and 4, not held, of a strip line whose aperture is posted. -/
def splitWrite : Transfer :=
  { port := .coach, write := true, line := 600, first := 3, count := 2
    words := [{ data := 9, lanes := 15 }, { data := 8, lanes := 15 }], lock := false }
def postedStrip : State :=
  { withStrip splitWrite with router :=
      { (withStrip splitWrite).router with map := { someMap with routeStrip := { base := 600, len := 48, posted := true } } } }

/-- Three posts wait, so there is room for one more; and a split write. -/
theorem wit_PostedWriteEntersBuffer :
    (postedStrip.router.coach = some (atCoach splitWrite) ∧ splitWrite.write = true ∧ splitWrite.formOk = true
      ∧ postedStrip.isPosted splitWrite = true ∧ postedStrip.router.posts = [] ∧ postedStrip.heldCount splitWrite = 1
      ∧ postedStrip.mapped = true ∧ heldEntry postedStrip.store 600 = some strip0)
    ∧ postedStrip.quiet ∧ StoreLaw postedStrip.store
    ∧ (withCoach (oneWrite 5 2 9)).router.coach = some (atCoach (oneWrite 5 2 9))
      ∧ (oneWrite 5 2 9).write = true
      ∧ ({ withCoach (oneWrite 5 2 9) with router := { (withCoach (oneWrite 5 2 9)).router with
            posts := List.replicate 3 { line := 9, first := 0, words := [] } } } : State).isPosted (oneWrite 5 2 9) = true
      ∧ (List.replicate 3 ({ line := 9, first := 0, words := [] } : Post)).length < 4 :=
  ⟨by decide, by unfold State.quiet; decide, store_law_strip, by decide⟩

/-- Seven and eight records in the queue. -/
theorem wit_CommitRetriedOrAccepted :
    (withCoach (oneWrite 103 7 3)).commitKind (oneWrite 103 7 3) = some .route
      ∧ (withCoach (oneWrite 103 7 3)).router.posts = []
      ∧ (withCoach (oneWrite 103 7 3)).router.coach = some (atCoach (oneWrite 103 7 3))
      ∧ ({ queue := List.replicate 7 { slot := 0, contents := .void } } : Intake).queue.length < 8
      ∧ 8 ≤ ({ queue := List.replicate 8 { slot := 0, contents := .void } } : Intake).queue.length := by decide

/-- A panel read. -/
def scan (line : Nat) : Transfer := { wholeRead with port := .panel, line := line }

/-- A panel read as it arrives. -/
def atPanel (t : Transfer) : PanelTx :=
  { t := t, moment := .arrived, posts := 0, req := reqAt t t.line, overlay := false, frees := none }

theorem wit_PanelReadTakenUp :
    ((withPanel (scan 5)).router.panel = some (atPanel (scan 5)) ∧ (atPanel (scan 5)).moment = .arrived
      ∧ (withPanel (scan 5)).windowAt 5 = none ∧ (∀ x ∈ (withPanel (scan 5)).router.posts, x.line ≠ 5)
      ∧ heldEntry (withPanel (scan 5)).store 5 = none)
    ∧ (({ withPanel (scan 415) with store := [heldLine] } : State).mapped = true
      ∧ heldEntry [heldLine] 415 = some heldLine ∧ (scan 415).first + (scan 415).count ≤ heldLine.width
      ∧ (withPanel (scan 415)).windowAt 415 = none)
    ∧ ([{ line := 5, first := 0, words := [] }, { line := 6, first := 0, words := [] }] : List Post)
        = [] ++ { line := 5, first := 0, words := [] } :: [{ line := 6, first := 0, words := [] }] := by decide

/-- A route window latched to line 637, whose last offset falls on the end of ROUTE_STRIP. -/
def latchedPast : State := { withPanel (scan 721) with windows := { routeLatch := some { target := some 637, timer := 1 } } }

/-- The route window's last offset, line 611, read with that line held and posts for 611 and 9 waiting. -/
def windowed (posts : List Nat) : State :=
  { withPanel (scan 721) with
    store := [{ heldLine with line := 611 }]
    router := { (withPanel (scan 721)).router with posts := posts.map fun l => { line := l, first := 0, words := [] } } }

/-- The banner window's offset 0 with no target; its last offset; the route window's last offset within ROUTE_STRIP, with a post
for the line, and with the line held; and, by a latch from a longer ROUTE_STRIP, at its end. -/
theorem wit_PanelReadThroughWindow :
    ((withPanel (scan 700)).router.panel = some (atPanel (scan 700)) ∧ (withPanel (scan 700)).windowAt 700 = some .banner
      ∧ 700 = ((withPanel (scan 700)).windowAperture .banner).base + 0 ∧ (withPanel (scan 700)).targetOf .banner = none)
    ∧ ((withPanel (scan 707)).windowAt 707 = some .banner
      ∧ 7 + 1 = ((withPanel (scan 707)).windowAperture .banner).len)
    ∧ ((withPanel (scan 721)).windowAt 721 = some .route ∧ (withPanel (scan 721)).targetOf .route = some 600
      ∧ 600 + 11 < (withPanel (scan 721)).router.map.routeStrip.base + (withPanel (scan 721)).router.map.routeStrip.len
      ∧ (∀ q ∈ (withPanel (scan 721)).router.posts, q.line ≠ 611) ∧ heldEntry (withPanel (scan 721)).store 611 = none)
    ∧ ((windowed [611, 9]).windowAt 721 = some .route ∧ (windowed [611, 9]).targetOf .route = some 600
      ∧ (windowed [611, 9]).router.posts = [] ++ { line := 611, first := 0, words := [] } :: [{ line := 9, first := 0, words := [] }])
    ∧ ((windowed []).targetOf .route = some 600 ∧ (windowed []).router.posts = []
      ∧ heldEntry (windowed []).store 611 = some { heldLine with line := 611 }
      ∧ (scan 721).first + (scan 721).count ≤ heldLine.width)
    ∧ (latchedPast.router.panel = some (atPanel (scan 721)) ∧ latchedPast.windowAt 721 = some .route
      ∧ latchedPast.windows.latch .route = some { target := some 637, timer := 1 }
      ∧ latchedPast.router.map.routeStrip.base + latchedPast.router.map.routeStrip.len = 637 + 11) := by
  decide

/-- A request at each level: a coach computer read, a post, and the Line Store's. -/
theorem wit_GrantFollowsOrder :
    ((after .coachRead (withCoach wholeRead)).arb.port = none ∧ (after .coachRead (withCoach wholeRead)).pins.reset = false
      ∧ (after .coachRead (withCoach wholeRead)).coachStands.isSome = true
      ∧ (after .coachRead (withCoach wholeRead)).fetchStands = none ∧ (after .coachRead (withCoach wholeRead)).profileStands = none
      ∧ (after .coachRead (withCoach wholeRead)).panelStands = none ∧ (after .coachRead (withCoach wholeRead)).storeStands = none)
    ∧ (after .postedWrite (withCoach (oneWrite 5 2 9))).router.posts.length = 1
    ∧ (({ act atStop with store := [heldLine] } : State).storeStands = some heldLine
      ∧ ({ act atStop with store := [heldLine] } : State).arb.lastStore = false)
    ∧ (after (.commitWriteAnswer true) commitGranted).fetchStands.isSome = true
    ∧ (after (.resetReleased false false) State.reset).profileStands = some 0
    ∧ (after .panelRead (withPanel (scan 5))).panelStands.isSome = true := by decide

theorem wit_WriteSetsNamedLanes : Memory.wf [(168, 9)] = true := by decide

/-- A coach computer read at the port, and a panel read that frees the banner latch. -/
def ackGranted : State := after .grant (after .coachWrite (withCoach (oneWrite 400 0 1)))
def readGranted : State := after .grant (after .coachRead (withCoach wholeRead))
def scanGranted : State := after .grant (after .panelRead { withPanel (scan 707) with windows :=
  { bannerTarget := some 800 } })

theorem wit_PassingTransferAnswered :
    (∃ p c, readGranted.arb.port = some p ∧ p.owner = .coach ∧ readGranted.router.coach = some c ∧ c.kind = .read none true)
    ∧ (∃ p c, ackGranted.arb.port = some p ∧ p.owner = .coach ∧ ackGranted.router.coach = some c ∧ c.kind = .ack)
    ∧ (∃ p x, scanGranted.arb.port = some p ∧ p.owner = .panel ∧ scanGranted.router.panel = some x ∧ x.frees = some .banner) :=
  ⟨⟨_, _, rfl, rfl, rfl, rfl⟩, ⟨_, _, rfl, rfl, rfl, rfl⟩, ⟨_, _, rfl, rfl, rfl, rfl⟩⟩

/-- A panel read that waits for two posts; and one that waits for the post at the port, its line not held, and held. -/
def waitingScan (line : Nat) (st : List Entry) (posts : List Nat) : State :=
  after .grant (after .panelRead { withPanel (scan line) with
    store := st
    router := { (withPanel (scan line)).router with posts := posts.map fun l => { line := l, first := 0, words := [] } } })

theorem wit_PostAnswered :
    (∃ p x, (waitingScan 5 [] [9, 5]).arb.port = some p ∧ p.owner = .post ∧ p.req.write = true
        ∧ (waitingScan 5 [] [9, 5]).router.panel = some x ∧ 1 < x.posts)
      ∧ (∃ p x, (waitingScan 5 [] [5]).arb.port = some p ∧ p.owner = .post ∧ p.req.write = true
        ∧ (waitingScan 5 [] [5]).router.panel = some x ∧ x.posts = 1 ∧ heldEntry (waitingScan 5 [] [5]).store x.req.line = none)
      ∧ (∃ p x, (waitingScan 415 [heldLine] [415]).arb.port = some p ∧ p.owner = .post ∧ p.req.write = true
        ∧ (waitingScan 415 [heldLine] [415]).router.panel = some x ∧ x.posts = 1 ∧ x.overlay = true
        ∧ heldEntry (waitingScan 415 [heldLine] [415]).store x.req.line = some heldLine
        ∧ x.req.first + x.req.count ≤ heldLine.width) :=
  ⟨⟨_, _, rfl, rfl, rfl, rfl, by decide⟩, ⟨_, _, rfl, rfl, rfl, rfl, rfl, rfl⟩, ⟨_, _, rfl, rfl, rfl, rfl, rfl, rfl, rfl, by decide⟩⟩

theorem wit_CommitWriteAnswered :
    ∃ p c k, commitGranted.arb.port = some p ∧ p.owner = .coach ∧ p.req.write = true ∧ commitGranted.router.coach = some c
      ∧ c.kind = .commit ∧ commitGranted.router.commit = some k := ⟨_, _, _, rfl, rfl, rfl, rfl, rfl, rfl⟩

/-- A record that passes its check (kind 3) and one that fails it (kind 0). -/
def fetchGranted (k : Word) : State :=
  after .grant (after (.commitWriteAnswer true) (after .grant (after .commit (withCoach { oneWrite 103 7 k with lock := true }))))

theorem wit_CommitFetchAnswered :
    (∃ p c k, (fetchGranted 3).arb.port = some p ∧ p.owner = .commitFetch ∧ (fetchGranted 3).router.coach = some c
      ∧ (fetchGranted 3).router.commit = some k ∧ k.kind = .route ∧ p.data = [0, 0, 0, 0, 0, 0, 0, 3])
      ∧ checkRecord someMap 0 .route [0, 0, 0, 0, 0, 0, 0, 3] = .ok .routeEmpty
      ∧ checkRecord someMap 0 .route [0, 0, 0, 0, 0, 0, 0, 0] = .error .kind :=
  ⟨⟨_, _, _, rfl, rfl, rfl, rfl, rfl, rfl⟩, rfl, rfl⟩

/-- A Profile Block (R183) with ROUTE at 100, MESSAGE at 300, ACK at 400 and REPORT at 410, two seats, and the halfword sum 0:
the halfwords other than word 3.6 sum to 0xB576. -/
def block : List Word :=
  [0x54505A31, 0x00000201, 100, 0, 300, 400, 410, 0, 0, 0, 0, 0, 48, 0x00010002, 6] ++ List.replicate 15 0 ++ [0x00004A8A, 1]

/-- The read of line 0 at the port, of a fetch and of a discarded one; and a block that passes. -/
theorem wit_ProfileLineAnswered :
    (∃ p, (after .grant (after (.resetReleased false false) State.reset)).arb.port = some p ∧ p.owner = .profileLine false
      ∧ (after .grant (after (.resetReleased false false) State.reset)).loader.fetch = some [])
    ∧ (∃ p, ({ act atStop with arb := { port := some { owner := .profileLine true, req := lineRead 0, data := [] } } } : State).arb.port
        = some p ∧ p.owner = .profileLine true)
    ∧ 32 ≤ block.length ∧ profilePasses 0 block = true ∧ profilePasses 0 (List.replicate 32 0) = false :=
  ⟨⟨_, rfl, rfl, rfl⟩, ⟨_, rfl, rfl⟩, by decide⟩

/-- A write-back at the port, of the one entry, in ACTIVE with nothing pending. -/
theorem wit_WritebackCompletes :
    (∃ p, (after .grant { act atStop with store := [heldLine] }).arb.port = some p ∧ p.owner = .writeback ∧ p.req.write = true)
      ∧ (after .grant { act atStop with store := [heldLine] }).quiet
      ∧ (after .grant { act atStop with store := [heldLine] }).active = true
      ∧ StoreLaw (after .grant { act atStop with store := [heldLine] }).store
      ∧ (after .grant { act atStop with store := [heldLine] }).store = [] ++ { heldLine with writing := true } :: []
      ∧ heldLine.line ≠ (act atStop).router.map.report.base ∧ heldLine.line ≠ (act atStop).router.map.report.base + 1 :=
  ⟨⟨_, rfl, rfl, rfl⟩, by unfold State.quiet; decide, by decide,
    { atMost32 := by decide, oneALine := by decide, successor := by decide, oneWrite := by decide }, by decide⟩

/-- The write of ACK at the port, in ACTIVE and in PASSIVE. -/
theorem wit_AckWriteClearsFactors :
    (∃ p c, ackGranted.arb.port = some p ∧ p.owner = .coach ∧ p.req.write = true ∧ ackGranted.router.coach = some c
      ∧ c.kind = .ack) ∧ ackGranted.mapped = true
      ∧ ({ ackGranted with loader := { part := .passive } } : State).mapped = false :=
  ⟨⟨_, _, rfl, rfl, rfl, rfl, rfl⟩, by decide⟩

def applyGranted (p : PartState) : State :=
  after .grant (after .coachWrite { withCoach (oneWrite 3 7 1) with loader := { part := p } })

/-- In each part state; the drain mark is clear in the one that is RELOADING. -/
theorem wit_ProfileCommitByPartState (x : PartState) :
    ∃ p c, (applyGranted x).arb.port = some p ∧ p.owner = .coach ∧ p.req.write = true ∧ (applyGranted x).router.coach = some c
      ∧ c.kind = .profile ∧ (applyGranted x).loader.part = x ∧ (applyGranted x).loader.drained = false := by
  cases x <;> exact ⟨_, _, rfl, rfl, rfl, rfl, rfl, rfl, rfl⟩

theorem wit_AbandonedTransferFinishes :
    ∃ p, (after .resetAsserted readGranted).arb.port = some p ∧ p.owner = .abandoned := ⟨_, rfl, rfl⟩

/-! ### Records and messages -/

/-- A record for a new slot, and one that replaces the TARGET's entry. -/
theorem wit_RouteRecordApplied :
    (RouteLaw running ∧ (withHead running 47 (.route (stopFields 9 4000))).head
        = some { slot := 47, contents := .route (stopFields 9 4000) }
      ∧ (withHead running 47 (.route (stopFields 9 4000))).seats.pending = [] ∧ running.stripPending = [] ∧ 47 < 48
      ∧ running.progress ≠ .ended ∧ running.pastEnd ≤ 47 ∧ running.entry 47 = none ∧ running.target ≠ some 47
      ∧ ∀ q ∈ running.entries, (q.1 < 47 → q.2.post < 4000) ∧ (47 < q.1 → 4000 < q.2.post))
    ∧ (running.pastEnd = 1 ∧ running.target = some 1 ∧ (stopFields 9 2500).kind = .call
      ∧ (stopFields 9 2500).mask.getLsbD running.portion = true
      ∧ ((running.entry 1).map (·.status)) = some .target
      ∧ ∀ q ∈ running.entries, (q.1 < 1 → q.2.post < 2500) ∧ (1 < q.1 → 2500 < q.2.post)) :=
  ⟨⟨law_running, by decide⟩, by decide⟩

/-- Each reason: ENDED; the highest slot of the past; the TARGET's slot for an EMPTY record; a post equal to a neighbour's. -/
theorem wit_RouteRecordRefused :
    ((withHead finished 2 .routeEmpty).head = some { slot := 2, contents := .routeEmpty } ∧ finished.progress = .ended)
    ∧ (running.progress ≠ .ended ∧ 0 < running.pastEnd)
    ∧ (running.progress ≠ .ended ∧ running.pastEnd ≤ 1 ∧ running.target = some 1)
    ∧ ((withHead running 2 (.route (stopFields 9 2000))).seats.pending = []
      ∧ (withHead running 2 (.route (stopFields 9 2000))).head = some { slot := 2, contents := .route (stopFields 9 2000) }
      ∧ running.stripPending = [] ∧ running.pastEnd ≤ 2 ∧ (running.entry 2).map (·.status) = some .ahead
      ∧ running.target ≠ some 2 ∧ running.entry 1 = some (stopAt 2 2000 .target)
      ∧ (stopFields 9 2000).post ≤ (stopAt 2 2000 .target).post) := by decide

/-- A filled slot, an empty one, and the last calling stop of PRE_JOURNEY when it is not the TARGET. -/
theorem wit_RouteRecordEmptyRemoves :
    (RouteLaw running ∧ (withHead running 2 .routeEmpty).head = some { slot := 2, contents := .routeEmpty }
      ∧ (withHead running 2 .routeEmpty).seats.pending = [] ∧ running.stripPending = [] ∧ running.progress ≠ .ended
      ∧ running.pastEnd ≤ 2 ∧ running.entry 2 = some (stopAt 3 3000 .ahead) ∧ running.target ≠ some 2)
    ∧ (running.entry 47 = none ∧ running.pastEnd ≤ 47 ∧ running.target ≠ some 47)
    ∧ (RouteLaw { early with table := tableOf [some (stopAt 1 1000 .skipped)] }
      ∧ ({ early with table := tableOf [some (stopAt 1 1000 .skipped)] } : Route).pastEnd ≤ 0
      ∧ ({ early with table := tableOf [some (stopAt 1 1000 .skipped)] } : Route).target = none) :=
  ⟨⟨law_running, by decide⟩, by decide, law_of_check (by decide), by decide⟩

/-- Stops in the route in the order named, and against it; NO_ROUTE, and a seat with a second reservation. -/
theorem wit_ReservationRecordsAct :
    ((withHead atStop 7 (.reserve 1 3 2 .standard none)).head = some { slot := 7, contents := .reserve 1 3 2 .standard none }
      ∧ (withHead atStop 7 (.reserve 1 3 2 .standard none)).seats.pending = []
      ∧ atStop.bindCode 3 = some 2 ∧ (∃ q ∈ atStop.entries, q.2.kind = .call ∧ q.2.code = 2)
      ∧ ∀ q ∈ atStop.entries, q.2.kind = .call → q.2.code = 2 → q.1 ≤ 2)
    ∧ (atStop.bindCode 2 = some 1 ∧ (∃ q ∈ atStop.entries, q.2.kind = .call ∧ q.2.code = 3 ∧ ¬ q.1 ≤ 1) ∧ atStop.refEnd = some 1)
    ∧ (∃ a ∈ legs atStop { pool := [(7, resv 1 .standard), (8, resv 1 .group)] } 1,
        ∃ b ∈ legs atStop { pool := [(7, resv 1 .standard), (8, resv 1 .group)] } 1,
          a.slot = 7 ∧ b.slot ≠ 7 ∧ a.lo < b.hi ∧ b.lo < a.hi ∧ 1 ≤ a.hi ∧ 1 ≤ b.hi)
    ∧ ((withHead atStop 7 .void).head = some { slot := 7, contents := .void }) := by decide

/-- A jump at the tolerance of 200 m and one past it. -/
theorem wit_PositionFixSets :
    (withMsg running (.positionFix 201)).head = some { slot := 0, contents := .message (.positionFix 201) }
      ∧ gap (200 * 1000) (act running).odo.position ≤ (act running).params.fixTol * 1000
      ∧ (act running).params.fixTol * 1000 < gap (201 * 1000) (act running).odo.position := by decide

/-- A stop missed, with a later one the TARGET. -/
def missed : Route := { table := stops .passed .missed .target, progress := .running, lastMissed := some 1 }

/-- The TARGET, a stop beyond it, the last-missed stop, and the TARGET in STANDING. -/
theorem wit_StopCalledReaches :
    (RouteLaw running ∧ (withMsg running (.stopCalled 2)).head = some { slot := 0, contents := .message (.stopCalled 2) }
      ∧ running.entry 1 = some (stopAt 2 2000 .target) ∧ running.progress ≠ .ended ∧ running.progress ≠ .noRoute
      ∧ running.target = some 1)
    ∧ ((∀ q ∈ running.entries, running.target = some q.1 → q.2.code ≠ 3) ∧ running.pastEnd ≤ 2
      ∧ running.entry 2 = some (stopAt 3 3000 .ahead)
      ∧ ∀ q ∈ running.entries, running.pastEnd ≤ q.1 → q.1 < 2 → q.2.kind = .call → q.2.status = .ahead → q.2.code ≠ 3)
    ∧ (RouteLaw missed ∧ missed.lastMissed = some 1 ∧ missed.entry 1 = some (stopAt 2 2000 .missed)
      ∧ (∀ q ∈ missed.entries, missed.target = some q.1 → q.2.code ≠ 2)
      ∧ ∀ q ∈ missed.entries, missed.pastEnd ≤ q.1 → q.2.kind = .call → q.2.status = .ahead → q.2.code ≠ 2)
    ∧ (RouteLaw atStop ∧ atStop.progress = .standing ∧ atStop.current = some 0 ∧ atStop.target = some 1) :=
  ⟨⟨law_running, by decide⟩, by decide, ⟨law_of_check (by decide), by decide⟩, law_atStop, by decide⟩

/-- ENDED; NO_ROUTE; the CURRENT's code; a stop SKIPPED ahead; a stop behind. -/
theorem wit_StopCalledElsewhere :
    finished.progress = .ended ∧ ({} : Route).progress = .noRoute
      ∧ ((withMsg atStop (.stopCalled 1)).head = some { slot := 0, contents := .message (.stopCalled 1) }
        ∧ atStop.progress ≠ .ended ∧ atStop.progress ≠ .noRoute ∧ atStop.currentEntry = some (stopAt 1 1000 .current)
        ∧ (∀ q ∈ atStop.entries, atStop.target = some q.1 → q.2.code ≠ 1) ∧ atStop.lastMissed = none
        ∧ ∀ q ∈ atStop.entries, atStop.pastEnd ≤ q.1 → q.2.kind = .call → q.2.status = .ahead → q.2.code ≠ 1)
      ∧ (({ running with table := stops .passed .skipped .target } : Route).pastEnd ≤ 1
        ∧ ({ running with table := stops .passed .skipped .target } : Route).entry 1 = some (stopAt 2 2000 .skipped)
        ∧ ({ running with table := stops .passed .skipped .target } : Route).target = some 2)
      ∧ (running.currentEntry = none ∧ ∀ q ∈ running.entries, running.pastEnd ≤ q.1 → q.2.code ≠ 1) := by decide

/-- The TARGET; and each of the other outcomes. -/
theorem wit_StopSkippedActs :
    (RouteLaw running ∧ (withMsg running (.stopSkipped 2)).head = some { slot := 0, contents := .message (.stopSkipped 2) }
      ∧ running.progress ≠ .ended ∧ running.pastEnd ≤ 1 ∧ running.entry 1 = some (stopAt 2 2000 .target)
      ∧ ∀ q ∈ running.entries, running.pastEnd ≤ q.1 → q.1 < 1 → q.2.kind = .call →
          (q.2.status = .ahead ∨ q.2.status = .target) → q.2.code ≠ 2)
    ∧ finished.progress = .ended
    ∧ (∀ st ∈ [Status.skipped, .notServed], ({ running with table := stops .passed st .target } : Route).progress ≠ .ended
        ∧ ({ running with table := stops .passed st .target } : Route).entry 1 = some (stopAt 2 2000 st)
        ∧ ({ running with table := stops .passed st .target } : Route).pastEnd ≤ 1
        ∧ ∀ q ∈ ({ running with table := stops .passed st .target } : Route).entries, q.2.kind = .call →
            (q.2.status = .ahead ∨ q.2.status = .target) → q.2.code ≠ 2)
    ∧ (running.entry 0 = some (stopAt 1 1000 .passed) ∧ ∀ q ∈ running.entries, running.pastEnd ≤ q.1 → q.2.code ≠ 1)
    ∧ (∀ q ∈ running.entries, q.2.code ≠ 9) :=
  ⟨⟨law_running, by decide⟩, by decide⟩

/-- A SKIPPED stop ahead. -/
def skipped : Route := { table := stops .passed .skipped .target, progress := .running }

/-- The stop at the position and one metre before it; and each of the other outcomes. -/
theorem wit_StopRestoredActs :
    (RouteLaw skipped ∧ (withMsg skipped (.stopRestored 2)).head = some { slot := 0, contents := .message (.stopRestored 2) }
      ∧ skipped.progress ≠ .ended ∧ skipped.pastEnd ≤ 1 ∧ skipped.entry 1 = some (stopAt 2 2000 .skipped)
      ∧ ∀ q ∈ skipped.entries, skipped.pastEnd ≤ q.1 → q.1 < 1 → q.2.status = .skipped → q.2.code ≠ 2)
    ∧ ((stopAt 2 2000 .skipped).post * 1000 ≤ (atM (act skipped) 2000).odo.position
      ∧ (atM (act skipped) 1999).odo.position < (stopAt 2 2000 .skipped).post * 1000)
    ∧ (finished.progress = .ended ∧ (∀ q ∈ running.entries, q.2.status ≠ .skipped)
      ∧ (running.entry 1 = some (stopAt 2 2000 .target) ∧ running.pastEnd ≤ 1)
      ∧ (running.entry 0 = some (stopAt 1 1000 .passed) ∧ ∀ q ∈ running.entries, running.pastEnd ≤ q.1 → q.2.code ≠ 1)
      ∧ ∀ q ∈ running.entries, q.2.code ≠ 9) :=
  ⟨⟨law_of_check (by decide), by decide⟩, by decide, by decide⟩

theorem wit_DelayClockAndOrientation :
    (withMsg running (.delay 5)).head = some { slot := 0, contents := .message (.delay 5) }
      ∧ (withMsg running (.clock none)).head = some { slot := 0, contents := .message (.clock none) }
      ∧ (withMsg running (.orientation true)).head = some { slot := 0, contents := .message (.orientation true) }
      ∧ running.reversed ≠ true ∧ ({ running with reversed := true } : Route).reversed = true := by decide

theorem wit_PortionSetRecomputes :
    ((withMsg finished (.portionSet 2)).head = some { slot := 0, contents := .message (.portionSet 2) } ∧ finished.progress = .ended)
    ∧ (RouteLaw running ∧ (withMsg running (.portionSet 2)).head = some { slot := 0, contents := .message (.portionSet 2) }
      ∧ running.progress ≠ .ended) := ⟨by decide, law_running, by decide⟩

/-- The Notice Queue's law with a NOTICE_ADD at the head of the Intake Queue. -/
theorem notice_law_add (s : State) (n : Nat) (a : NoticeArgs) (h1 : (s.notices.queue.map (·.id)).Nodup)
    (h2 : (s.notices.queue.filter Notice.fromCoach).length ≤ 15)
    (h3 : ∀ e ∈ s.notices.queue, (e.cls = .auto ↔ e.id = 255)) (h4 : (s.notices.queue.filter (·.shown)).length ≤ 1)
    (h5 : s.intake.queue = [{ slot := n, contents := .message (.noticeAdd a) }]) (h6 : a.id < 255 ∧ a.cls ≠ .auto) :
    NoticeLaw s :=
  ⟨h1, h2, h3, h4, fun x hx => by rw [h5] at hx; simp only [List.mem_singleton] at hx; subst hx; exact h6⟩

/-- A NOTICE_ADD at the head, with some notices queued. -/
def adding (a : NoticeArgs) (q : List Notice) : State :=
  { withNotes atStop q with intake := { queue := [{ slot := 0, contents := .message (.noticeAdd a) }] } }

/-- Fifteen notices of priority 1, none SHOWN. -/
def fifteen : List Notice := (List.range 15).map fun i => note i 1 .untilCancel false

/-- A present id, a new one with one place left, and a full queue whose entries have a lower priority or an equal one. -/
theorem wit_NoticeAddQueues :
    (NoticeLaw (adding (args 1 2 .info) [note 1 1 .untilCancel true, note 2 2 .untilCancel false])
      ∧ (adding (args 1 2 .info) [note 1 1 .untilCancel true, note 2 2 .untilCancel false]).head
          = some { slot := 0, contents := .message (.noticeAdd (args 1 2 .info)) }
      ∧ (∃ q ∈ [note 1 1 .untilCancel true, note 2 2 .untilCancel false], q.id = 1)
      ∧ atStop.progress.blank = false ∧ ∀ r ∈ [note 1 1 .untilCancel true, note 2 2 .untilCancel false], r.id ≠ 1 → r.priority ≤ 2)
    ∧ (NoticeLaw (adding (args 20 1 .info) (fifteen.drop 1)) ∧ (∀ q ∈ fifteen.drop 1, q.id ≠ 20)
      ∧ ((fifteen.drop 1).filter Notice.fromCoach).length < 15)
    ∧ (NoticeLaw (adding (args 20 2 .info) fifteen) ∧ (∀ q ∈ fifteen, q.id ≠ 20)
      ∧ 15 ≤ (fifteen.filter Notice.fromCoach).length ∧ fifteen = [] ++ note 0 1 .untilCancel false :: fifteen.drop 1
      ∧ (∀ r ∈ fifteen.drop 1, (note 0 1 .untilCancel false).priority ≤ r.priority) ∧ (note 0 1 .untilCancel false).priority < 2)
    ∧ (NoticeLaw (adding (args 20 1 .info) fifteen) ∧ ∀ m ∈ fifteen, 1 ≤ m.priority) :=
  ⟨⟨notice_law_add _ 0 _ (by decide) (by decide) (by decide) (by decide) rfl (by decide), by decide⟩,
    ⟨notice_law_add _ 0 _ (by decide) (by decide) (by decide) (by decide) rfl (by decide), by decide⟩,
    ⟨notice_law_add _ 0 _ (by decide) (by decide) (by decide) (by decide) rfl (by decide), by decide⟩,
    notice_law_add _ 0 _ (by decide) (by decide) (by decide) (by decide) rfl (by decide), by decide⟩

/-- The SHOWN notice cancelled, and another one. -/
theorem wit_NoticeCancelRemoves :
    (withMsg atStop (.noticeCancel 255)).head = some { slot := 0, contents := .message (.noticeCancel 255) }
      ∧ (withMsg atStop (.noticeCancel 4)).head = some { slot := 0, contents := .message (.noticeCancel 4) }
      ∧ (∀ q ∈ (withMsg atStop (.noticeCancel 4)).notices.queue, q.id ≠ 4)
      ∧ NoticeLaw (withNotes atStop [note 1 1 .untilCancel true, note 2 1 .untilCancel false])
      ∧ (∃ q ∈ [note 1 1 .untilCancel true, note 2 1 .untilCancel false], q.id = 1)
      ∧ (withNotes atStop [note 1 1 .untilCancel true, note 2 1 .untilCancel false]).notices.queue
          = [] ++ note 1 1 .untilCancel true :: [note 2 1 .untilCancel false]
      ∧ (withNotes atStop [note 1 1 .untilCancel true, note 2 1 .untilCancel false]).notices.queue
          = [note 1 1 .untilCancel true] ++ note 2 1 .untilCancel false :: []
      ∧ (withNotes atStop [note 1 1 .untilCancel true, note 2 1 .untilCancel false]).notices.shownEntry
          = some (note 1 1 .untilCancel true)
      ∧ (note 1 1 .untilCancel true).priority = topPriority ([note 1 1 .untilCancel true] ++ [])
      ∧ atStop.progress.blank = false ∧ finished.progress.blank = true :=
  ⟨by decide, by decide, by decide, notice_law _ (by decide) (by decide) (by decide) (by decide) (by decide), by decide⟩

theorem wit_JourneyResetClears :
    (withMsg running .journeyReset).head = some { slot := 0, contents := .message .journeyReset } := by decide

/-! ### Reports, compositions, the Line Store, and the laws that steps keep -/

/-- The Counter line whole and its word 7 alone, the Position line without word 7, the Arrival line with it. -/
theorem wit_ReportReadActs :
    (1 ≤ 8 ∧ 0 + 8 ≤ 8 ∧ (0 : Nat) ≤ 6 ∧ ({} : Report).counters.length = 14 ∧ ({} : Report).shown.length = 14)
      ∧ (1 ≤ 1 ∧ 7 + 1 ≤ 8)
      ∧ (∃ c, (after .coachRead (withCoach { wholeRead with line := 411 })).coachStands = some c ∧ c.kind = .read (some 1) true
        ∧ (after .coachRead (withCoach { wholeRead with line := 411 })).arb.port = none
        ∧ (after .coachRead (withCoach { wholeRead with line := 411 })).mapped = true
        ∧ (after .coachRead (withCoach { wholeRead with line := 411 })).pins.reset = false
        ∧ (after .coachRead (withCoach { wholeRead with line := 411 })).loader.fetch = none
        ∧ (after .coachRead (withCoach { wholeRead with line := 411 })).panelStands = none
        ∧ (after .coachRead (withCoach { wholeRead with line := 411 })).storeStands = none) :=
  ⟨by decide, by decide, _, rfl, rfl, rfl, rfl, rfl, rfl, rfl, rfl⟩

/-- The laws of the part on a state with nothing under way. -/
theorem path_law_act (r : Route) : PathLaw (act r) :=
  { resetQuiet := by intro h; cases h
    commitHolds := by intro h; exact absurd rfl h
    room := by show 0 + (if false = true then 1 else 0) ≤ 8; decide
    activeNoFetch := fun _ => rfl
    lineOfFetch := by intro p h; cases h
    posts := Nat.zero_le 4
    late := fun h => by cases h }

/-- Nothing is pending with no composition asked for. -/
theorem settled_act (r : Route) (h : r.stripPending = []) : (act r).Settled := fun _ =>
  ⟨nofun, nofun, nofun, nofun, nofun, nofun, (fun _ _ h' => nomatch h.symm.trans h'), nofun⟩

/-- A store of 32 held lines. -/
def fullStore : List Entry := (List.range 32).map fun i => { strip0 with line := i }

/-- A seat and a strip line that wait. -/
def seatWaits : State := { act atStop with loader := { part := .active, profile := { seatCount := 2 } }, seats := { pending := [1] } }
def stripWaits : State := act { atStop with stripPending := [3, 5] }

/-- Held and free places; each composer pending with every one before it idle, with its line, without it, and without a place;
a strip line and a seat that wait, with changed content and with content composed already. -/
theorem wit_OfferTakenIntoStore :
    (StoreLaw [strip0] ∧ heldEntry [strip0] 600 = some strip0 ∧ heldEntry [strip0] 601 = none ∧ canTake [strip0] 601 = true
      ∧ canTake ((List.range 31).map fun i => { strip0 with line := i }) 600 = true ∧ canTake fullStore 600 = false
      ∧ canTake fullStore 31 = true)
    ∧ (({ act atStop with phase := { pending := true } } : State).phase.pending = true
      ∧ ({ act atStop with report := { pendEvent := true } } : State).report.pendEvent = true
      ∧ ({ act atStop with report := { pendCounter := true } } : State).report.pendEvent = false
      ∧ ({ act atStop with report := { pendPosition := true, latch := some { count := 0, started := false } } } : State).report.latch.isSome
        = true
      ∧ ({ act atStop with report := { pendArrival := true } } : State).report.pendPosition = false
      ∧ ({ act atStop with notices := { bannerPending := true } } : State).report.pendArrival = false
      ∧ (act atStop).router.map.report.len = 6 ∧ ({ act atStop with router := {} } : State).router.map.report.len = 0
      ∧ canTake fullStore (someMap.report.base + 5) = false)
    ∧ (stripWaits.active = true ∧ stripWaits.route.stripPending = 3 :: [5] ∧ stripWaits.seats.pending = []
      ∧ canTake stripWaits.store (someMap.routeStrip.base + 3) = true)
    ∧ (seatWaits.active = true ∧ seatWaits.route.stripPending = [] ∧ seatWaits.seats.pending = 1 :: []
      ∧ (seatWaits.seats.recs.getD 1 {}).composed = false
      ∧ ({ composed := true, last := resolveSeat atStop { pool := [] } 1 } : SeatRec).composed = true)
    ∧ (PathLaw (act atStop) ∧ (act atStop).Settled ∧ ∃ t, step (act atStop) = .next t)
    ∧ ((act atStop).quiet ∧ reloading.active = false)
    ∧ (stripWaits.route.stripPending.Pairwise (· < ·) ∧ atStop.table.length = running.table.length
      ∧ atStop.target = some 1) :=
  ⟨⟨store_law_strip, by decide⟩, by decide, by decide, by decide, ⟨path_law_act _, settled_act _ rfl, _, rfl⟩,
    ⟨by unfold State.quiet; decide, by decide⟩, by decide⟩

/-- The covering bounds at the reference stop: BLOCKED, OVERLAP, OCCUPIED, FROM_NEXT, FREE_UNTIL and FREE each have a seat. -/
theorem wit_SeatStateByOrder :
    (finished.progress.blank = true) ∧ running.refEnd = some 1 ∧ running.target = some 1
      ∧ (resolveSeat { running with table := stops .passed .current .target } { pool := [(0, resv 1 .blocked)] } 1).state = .blocked
      ∧ (resolveSeat running { pool := [(0, resv 1 .standard), (1, resv 1 .group)] } 1).state = .overlap
      ∧ (resolveSeat { running with table := stops .passed .current .target } { pool := [(0, resv 1 .standard)] } 1).state = .occupied
      ∧ (resolveSeat running { pool := [(0, resv 1 .standard)] } 1).state = .fromNext
      ∧ (resolveSeat { running with table := stops .target .ahead .ahead } { pool := [(0, resv 1 .standard)] } 1).state = .freeUntil
      ∧ (resolveSeat running {} 1).state = .free := by decide


/-- For each of the five StepKeeps statements: a step to a next state, under every law. -/
theorem wit_StepKeeps :
    (∃ t, step (act running) = .next t) ∧ MemoryLaw (act running) ∧ StoreLaw (act running).store ∧ PathLaw (act running)
      ∧ CountLaw (act running) ∧ OdoLaw (act running).odo ∧ RouteLaw (act running).route ∧ NoticeLaw (act running) := by
  refine ⟨⟨_, rfl⟩, rfl, ?_, ?_, ?_, ?_, law_running, notice_law _ (by decide) (by decide) (by decide) (by decide) rfl⟩
  · exact { atMost32 := by decide, oneALine := by decide, successor := by decide, oneWrite := by decide }
  · exact path_law_act _
  · exact { fourteen := by decide, top := by decide, grants := by decide, asking := (by intro c h; cases h)
            idle := (by intro n h; cases h), phase := by decide }
  · exact { remainder := by decide, window := by decide, ring := by decide, run := by decide, reported := by decide
            minutes := by decide, invalid := by decide }

/-! ### Clauses about notices, reservations and bindings -/

/-- An AUTO entry of a stage with the stop of slot 1 for its subject, and a coach computer notice. -/
def spoken (st : Stage) (text : Nat) : List Notice :=
  [{ note 255 2 .untilCancel true with cls := .auto, text := text, dwell := 500, chime := st = .approaching, auto := some (st, 1) },
    note 1 1 .untilCancel false]

/-- An AUTO entry before each command that replaces, keeps, refreshes or removes it: a stop reached and a halt; a target missed with
another above it, and without; PRE_JOURNEY left at the depart distance; a departure to ENDED. -/
theorem wit_AutoEntryFollows :
    (NoticeLaw (atM (withNotes running (spoken .departed 2)) 1600)
      ∧ (atM (withNotes running (spoken .departed 2)) 1600).autoNow.map (·.text) = some 2
      ∧ (after .doorReleaseAcceptance (atM (withNotes running (spoken .departed 2)) 1600)).autoNow.bind (·.auto) = some (.standing, 1)
      ∧ (after .doorReleaseAcceptance (atM (withNotes running (spoken .departed 2)) 1600)).autoNow.map (·.text) = some 5)
    ∧ (after .doorReleaseAcceptance (atM (withNotes running (spoken .departed 2)) 1599)).autoNow.map (·.text) = some 2
    ∧ ((after .windowEnd (atM (withNotes running (spoken .departed 2)) 3500)).autoNow.bind (·.auto) = some (.arriving, 2)
      ∧ (after .windowEnd (atM (withNotes running (spoken .departed 2)) 3500)).phase.blankAll = false
      ∧ (after .windowEnd (atM (withNotes running (spoken .departed 2)) 3500)).phase.seq = 1)
    ∧ ((after .windowEnd (atM (withNotes running (spoken .departed 2)) 5000)).route.progress = .ended
      ∧ (after .windowEnd (atM (withNotes running (spoken .departed 2)) 5000)).autoNow = none
      ∧ (after .windowEnd (atM (withNotes running (spoken .departed 2)) 5000)).coachNotices = [note 1 1 .untilCancel false]
      ∧ (after .windowEnd (atM (withNotes running (spoken .departed 2)) 5000)).phase.blankAll = true
      ∧ (after .windowEnd (atM (withNotes running (spoken .departed 2)) 5000)).phase.seq = 0)
    ∧ (after .windowEnd (atM (act early) 1800)).autoNow.bind (·.auto) = some (.departed, 1) :=
  ⟨⟨notice_law _ (by decide) (by decide) (by decide) (by decide) (by decide), by decide⟩, by decide, by decide, by decide, by decide⟩

/-- A reservation that ends at the CURRENT slot, and one behind the past line, where the journey ends: both expire (R56). -/
theorem wit_ExpiryAtEnded :
    (after .doorClosedAcceptance (released { act { finished with progress := .halted } with seats :=
        { pool := [(0, resv 1 .standard)] } })).seats.pool = []
      ∧ (after .windowEnd { atM (act running) 5000 with seats := { pool := [(0, resv 1 .standard)] } }).seats.pool = [] := by decide

/-- Each clause of a showing: after the last showing, the same entry again, another entry; an append below the SHOWN entry, a
preemption and an eviction of the SHOWN entry; the SHOWN entry cancelled; text blocks 0 and 1 of two, and block 2 beyond them. -/
theorem wit_ShowingFollows :
    (after .dwellExpiry (withNotes atStop [note 1 1 (.showCount 1) true, note 2 1 .untilCancel false])).shows
        = { id := some 2, mark := some 2, dwell := 300, seq := 1, chime := none, target := some 800 }
    ∧ (after .dwellExpiry (withNotes atStop [note 1 1 .untilCancel true])).shows
        = { (withNotes atStop [note 1 1 .untilCancel true]).shows with dwell := 300 }
    ∧ (after .dwellExpiry (withNotes atStop [note 1 1 .untilCancel true, note 2 1 .untilCancel false])).shows.id = some 2
    ∧ (after .noticeAdd (adding (args 3 0 .info) [note 1 1 .untilCancel true])).shows
        = (adding (args 3 0 .info) [note 1 1 .untilCancel true]).shows
    ∧ (after .noticeAdd (adding { args 3 2 .info with chime := true, text := 1 } [note 1 1 .untilCancel true])).shows
        = { id := some 3, mark := some 3, dwell := 500, seq := 1, chime := some 50, target := some 808 }
    ∧ (after .noticeAdd (adding { args 20 2 .info with text := 2 } ({ note 0 1 .untilCancel true with shown := true } :: fifteen.drop 1))).shows
        = { id := some 20, mark := some 20, dwell := 500, seq := 2, chime := none, target := none }
    ∧ (after .noticeCancel { withNotes atStop [note 1 1 .untilCancel true] with
          intake := { queue := [{ slot := 0, contents := .message (.noticeCancel 1) }] } }).shows
        = { id := none, mark := none, dwell := 0, seq := 0, chime := none, target := none } := by decide

/-- A code bound above the past line, one bound behind it, a to stop against the order; a from stop that is unbound. -/
theorem wit_BindingFollows :
    (({ resv 1 .standard with boundFrom := none, boundTo := none } : Reservation).bind running).boundFrom = some 1
      ∧ (({ resv 1 .standard with fromCode := 1 } : Reservation).bind running).boundFrom = some 0
      ∧ (({ resv 1 .standard with fromCode := 3, toCode := 2 } : Reservation).bind running).boundTo = none
      ∧ (({ resv 1 .standard with fromCode := 9, toCode := 2 } : Reservation).bind running).boundFrom = none
      ∧ (({ resv 1 .standard with fromCode := 9, toCode := 2 } : Reservation).bind running).boundTo = some 1 := by decide

/-- A served from stop and one rebased; a served to stop and one clamped; a reference stop by a CURRENT, by the TARGET of
PRE_JOURNEY, and, without a CURRENT, by the last stop passed. -/
theorem wit_MappingFollows :
    (resv 1 .standard).mappedFrom running = some 1
      ∧ (resv 1 .standard).mappedFrom { running with table := stops .passed .skipped .target } = some 2
      ∧ (resv 1 .standard).mappedTo running = some 2
      ∧ (resv 1 .standard).mappedTo { running with table := stops .passed .target .skipped } = some 1
      ∧ atStop.refEnd = some 1 ∧ early.refEnd = some 1 ∧ running.refEnd = some 1
      ∧ (∃ l ∈ legs running { pool := [(0, resv 1 .standard), (4, resv 1 .group)] } 1, l.slot = 4) := by decide

/-- The route window at the CURRENT slots 2 and 3, past its last base, and under REVERSED; the current target without a ROUTE_STRIP;
the window's line past ROUTE_STRIP's end. -/
theorem wit_WindowTargets :
    ({ act atStop with windows := { current := some 2 } } : State).targetOf .route = some 600
      ∧ ({ act atStop with windows := { current := some 3 } } : State).targetOf .route = some 601
      ∧ ({ act atStop with windows := { current := some 47 } } : State).targetOf .route = some 636
      ∧ ({ act atStop with windows := { current := some 3, reversed := true } } : State).targetOf .route = some 635
      ∧ ({ act atStop with router := {} } : State).targetOf .route = none
      ∧ ({ act atStop with windows := { current := some 3 } } : State).windowAt 721 = some .route
      ∧ ({ act atStop with windows := { current := some 3 } } : State).coachLine 721 = some 612
      ∧ ({ act atStop with router := { map := { someMap with routeStrip := { base := 600, len := 11 } } } } : State).coachLine 721 = none := by
  decide

/-! ### The part fetch and another request; the lines that join -/

/-- The read of the profile's line 1 and a panel read stand at a free port, the fetch presented late or not. -/
def fetchAndPanel (late : Bool) : State :=
  { after .panelRead (withPanel (scan 5)) with
    loader := { part := .reloading, fetch := some (List.replicate 8 0), drained := true }, arb := { fetchLate := late } }

/-- A fetch presented after the answer waits for the panel read, one presented before it goes first, and a late one alone is granted
(R139, R140; log 39). -/
theorem wit_FetchWaits :
    (fetchAndPanel true).FetchWaits ∧ ¬ (fetchAndPanel false).FetchWaits
    ∧ ((after .grant (fetchAndPanel true)).arb.port.map (·.owner)) = some .panel
    ∧ (after .grant (fetchAndPanel true)).arb.fetchLate = false
    ∧ ((after .grant (fetchAndPanel false)).arb.port.map (·.owner)) = some (.profileLine false)
    ∧ ((after .grant { fetchAndPanel true with router := { map := someMap } }).arb.port.map (·.owner))
        = some (.profileLine false) := by
  unfold State.FetchWaits State.OtherStands; decide

/-- A read of the banner window's offset 0 with no target waits at the coach computer port. -/
def lockedWindowRead (locked : Bool) : State :=
  { fetchAndPanel true with router := { (fetchAndPanel true).router with
      coach := some (atCoach { wholeRead with line := 700, lock := locked }) } }

/-- A late fetch stands beside the panel read after a take-up, and after the sequence that a locked one begins has ended (R140, R145,
R147): the profile line read of level 2 is granted first. -/
theorem test_fetch_caught_up :
    (after .coachRead (lockedWindowRead true)).arb.locked = true
    ∧ ((after .grant (after .lockIdleExpiry (after .coachRead (lockedWindowRead true)))).arb.port.map (·.owner))
        = some (.profileLine false)
    ∧ ((after .grant (after .coachRead (lockedWindowRead false))).arb.port.map (·.owner)) = some (.profileLine false)
    ∧ ((after .grant (after .panelRead { withPanel (scan 5) with
        loader := (fetchAndPanel true).loader, arb := { fetchLate := true } })).arb.port.map (·.owner)) = some (.profileLine false) := by
  decide

/-- The last line of a profile at the port, in LOADING; a discarded read with a fetch begun again, in a locked sequence. -/
def lastLine (ws : List Word) : State :=
  { pins := { reset := false }, loader := { fetch := some (ws.take 24) }, seats := { pool := [(0, resv 1 .standard)] }
    arb := { port := some { owner := .profileLine false, req := lineRead 3, data := ws.drop 24 } } }
def discardedRead : State :=
  { lastLine block with arb := { port := some { owner := .profileLine true, req := lineRead 0, data := [] }, locked := true } }

theorem path_law_lastLine (ws : List Word) : PathLaw (lastLine ws) where
  resetQuiet := fun h => by cases h
  commitHolds := fun h => absurd rfl h
  room := by simp [lastLine]
  activeNoFetch := fun h => by cases h
  lineOfFetch := fun p _ _ => by simp [lastLine]
  posts := by simp [lastLine]
  late := fun h => by cases h

/-- Entry to ACTIVE composes the six REPORT lines (R164, R177); entry to PASSIVE clears the seats (R178); a discarded read is not
taken, and the fetch is asked for again (R174). -/
theorem wit_ProfileOutcomes :
    (PathLaw (lastLine block) ∧ (lastLine block).active = false
      ∧ (after (.profileLineReadAnswer true) (lastLine block)).active = true
      ∧ ∀ k, k < 6 → 410 + k ∈ (after (.profileLineReadAnswer true) (lastLine block)).store.map (·.line))
    ∧ ((after (.profileLineReadAnswer true) (lastLine (List.replicate 32 0))).loader.part = .passive
      ∧ (after (.profileLineReadAnswer true) (lastLine (List.replicate 32 0))).seats.pool = [])
    ∧ (discardedRead.loader.fetch ≠ none ∧ discardedRead.arb.locked = true
      ∧ (after (.profileLineReadAnswer true) discardedRead).arb.port = none
      ∧ (after (.profileLineReadAnswer true) discardedRead).loader = discardedRead.loader
      ∧ (after (.profileLineReadAnswer true) discardedRead).arb.fetchLate = false) :=
  ⟨⟨path_law_lastLine _, by decide⟩, by decide, by decide⟩

/-- A write-back that the memory fails in ACTIVE composes REPORT lines 0 and 1 (R165, R166). -/
theorem wit_WritebackFaultReports :
    (after .grant { act atStop with store := [heldLine] }).active = true
      ∧ (after .grant { act atStop with store := [heldLine] }).report.has .writebackFault = false
      ∧ (after .grant { act atStop with store := [heldLine] }).report.counters.getD 3 0 < 65535
      ∧ (after (.writebackCompletion false) (after .grant { act atStop with store := [heldLine] })).store.map (·.line)
          = [410, 411] := by decide

/-- A clock at the head of the queue, with an AUTO entry about the TARGET shown. -/
def clockBefore : State :=
  { withNotes running (spoken .departed 2) with intake := (withMsg running (.clock (some 5))).intake }

/-- The REPORT lines taken at a command that has each composed: a factor cleared (Event), a stop reached (Event, Position, Arrival),
a bad record (Event, Counter), a journey reset (Position, Arrival, Banner and the cleared lines), a showing (Banner), a clock
(Position, Banner), a toggle (Phase). -/
theorem wit_LinesJoin :
    410 ∈ (after .ackWrite { ackGranted with report := { factors := 3 } }).store.map (·.line)
    ∧ (∀ l ∈ [410, 412, 413], l ∈ (after .doorReleaseAcceptance (atM (act running) 2000)).store.map (·.line))
    ∧ (∀ l ∈ [410, 411], l ∈ (after .stopCalled (withMsg running (.stopCalled 9))).store.map (·.line))
    ∧ (∀ l ∈ [412, 413, 415], l ∈ (after .journeyReset (withMsg running .journeyReset)).store.map (·.line))
    ∧ (NoticeLaw (withMsg atStop (.noticeAdd (args 4 1 .info)))
      ∧ 415 ∈ (after .noticeAdd (withMsg atStop (.noticeAdd (args 4 1 .info)))).store.map (·.line))
    ∧ (NoticeLaw clockBefore ∧ ∀ l ∈ [412, 415], l ∈ (after .clock clockBefore).store.map (·.line))
    ∧ 414 ∈ (after .phaseToggle beforeToggle).store.map (·.line) :=
  ⟨by decide, by decide, by decide, by decide,
    ⟨⟨by decide, by decide, by decide, by decide, List.forall_mem_singleton.mpr (by decide : 4 < 255 ∧ NClass.info ≠ .auto)⟩, by decide⟩,
    ⟨⟨by decide, by decide, by decide, by decide, List.forall_mem_singleton.mpr trivial⟩, by decide⟩, by decide⟩

end Sys2Proof.Tests
end

section
/-! The next phase toggle (R116): the tick count it is reached at, as a multiple of the smaller power. -/

namespace Sys2Proof.Machine

/-! ### The period between toggles -/

/-- The period between toggles is one of the two powers, and divides both: its multiples are theirs together. -/
theorem Params.togglePeriod_dvd_iff (p : Params) (n : Nat) :
    p.togglePeriod ∣ n ↔ n % 2 ^ p.planeExp = 0 ∨ n % 2 ^ p.blinkExp = 0 := by
  have hplane : p.togglePeriod ∣ 2 ^ p.planeExp := Nat.pow_dvd_pow 2 (Nat.min_le_left ..)
  have hblink : p.togglePeriod ∣ 2 ^ p.blinkExp := Nat.pow_dvd_pow 2 (Nat.min_le_right ..)
  simp only [← Nat.dvd_iff_mod_eq_zero]
  constructor
  · intro h
    rcases Nat.le_total p.planeExp p.blinkExp with hle | hle
    · left; rwa [Params.togglePeriod, Nat.min_eq_left hle] at h
    · right; rwa [Params.togglePeriod, Nat.min_eq_right hle] at h
  · rintro (h | h)
    · exact Nat.dvd_trans hplane h
    · exact Nat.dvd_trans hblink h

/-- The phase count wraps at a multiple of the period, as R27 bounds the exponents. -/
theorem Params.togglePeriod_dvd_phasePeriod (p : Params) (h : p.blinkExp ≤ 8) :
    p.togglePeriod ∣ Config.phasePeriod :=
  Nat.pow_dvd_pow (n := 9) 2 (Nat.le_trans (Nat.min_le_right ..) (Nat.le_trans h (by decide)))

/-! ### The next toggle's count -/

/-- No multiple lies strictly between a number and the next multiple after it. -/
theorem not_dvd_before_next_multiple {d a n : Nat} (hlo : a < n) (hhi : n < (a / d + 1) * d) : ¬ d ∣ n :=
  Nat.not_dvd_of_lt_of_lt_mul_succ (Nat.lt_of_le_of_lt (Nat.mul_div_le a d) hlo) (Nat.mul_comm .. ▸ hhi)

theorem State.tick_lt_next_multiple (s : State) :
    s.phase.tick < (s.phase.tick / s.params.togglePeriod + 1) * s.params.togglePeriod := by
  rw [Nat.mul_comm]
  exact Nat.lt_mul_div_succ _ (Nat.two_pow_pos _)

/-- The next multiple of the period is reached before the wrap, or is the wrap, where the count is 0. -/
theorem State.nextToggle_cases (s : State) (ht : s.phase.tick < 512) (hj : s.params.blinkExp ≤ 8) :
    ((s.phase.tick / s.params.togglePeriod + 1) * s.params.togglePeriod < 512
        ∧ s.nextToggle = (s.phase.tick / s.params.togglePeriod + 1) * s.params.togglePeriod)
      ∨ ((s.phase.tick / s.params.togglePeriod + 1) * s.params.togglePeriod = 512 ∧ s.nextToggle = 0) := by
  obtain ⟨c, hc⟩ : s.params.togglePeriod ∣ 512 := s.params.togglePeriod_dvd_phasePeriod hj
  have hle : (s.phase.tick / s.params.togglePeriod + 1) * s.params.togglePeriod ≤ 512 := by
    have hlt : s.phase.tick / s.params.togglePeriod < c := Nat.div_lt_of_lt_mul (hc ▸ ht)
    calc (s.phase.tick / s.params.togglePeriod + 1) * s.params.togglePeriod
        ≤ c * s.params.togglePeriod := Nat.mul_le_mul_right _ hlt
      _ = 512 := by rw [Nat.mul_comm, ← hc]
  rcases Nat.lt_or_eq_of_le hle with hlt | heq
  · exact .inl ⟨hlt, Nat.mod_eq_of_lt hlt⟩
  · exact .inr ⟨heq, by rw [State.nextToggle, heq]; rfl⟩

theorem State.nextToggle_lt (s : State) : s.nextToggle < 512 := Nat.mod_lt _ (by decide)

theorem State.nextToggle_later (s : State) (ht : s.phase.tick < 512) (hj : s.params.blinkExp ≤ 8) :
    s.phase.tick < s.nextToggle ∨ s.nextToggle = 0 := by
  rcases s.nextToggle_cases ht hj with ⟨_, hn⟩ | ⟨_, hn⟩
  · exact .inl (hn ▸ s.tick_lt_next_multiple)
  · exact .inr hn

theorem State.togglePeriod_dvd_nextToggle (s : State) (hj : s.params.blinkExp ≤ 8) :
    s.params.togglePeriod ∣ s.nextToggle :=
  (Nat.dvd_mod_iff (s.params.togglePeriod_dvd_phasePeriod hj)).mpr (Nat.dvd_mul_left ..)

/-- No multiple of either power is passed over on the way to the next toggle, the wrap at 512 included. -/
theorem State.not_dvd_before_nextToggle (s : State) (ht : s.phase.tick < 512) (hj : s.params.blinkExp ≤ 8) {n : Nat}
    (hlo : s.phase.tick < n) (hhi : n < s.nextToggle ∨ s.nextToggle = 0 ∧ n < 512) : ¬ s.params.togglePeriod ∣ n := by
  refine not_dvd_before_next_multiple hlo ?_
  have hnext := s.tick_lt_next_multiple
  have hcases := s.nextToggle_cases ht hj
  generalize (s.phase.tick / s.params.togglePeriod + 1) * s.params.togglePeriod = m at hnext hcases ⊢
  omega

/-! ### The command -/

/-- The Phase Generator after the next toggle. -/
def State.toggledPhase (s : State) : Phase :=
  ({ s.phase with tick := s.nextToggle } : Phase).toggle s.params.planeExp s.params.blinkExp

theorem exec_phaseToggle_active (s : State) (ha : s.active = true) :
    exec .phaseToggle s = .next (s.setPhase s.toggledPhase).settle := by
  have harm : exec .phaseToggle s = execPhaseToggle s := rfl
  rw [harm, execPhaseToggle, if_pos ha]
  rfl

/-- Settles O20: the count reached is the next multiple of the period, and R116's toggles read it. -/
theorem phaseToggles : Obligations.PhaseToggles := by
  intro s ha ht _ _ _ hj
  refine ⟨_, exec_phaseToggle_active s ha, by simp, by simp, by simp, ?_⟩
  have hfacts : (s.setPhase s.toggledPhase).settle.phase.facts = s.toggledPhase.facts := State.settle_phase_facts _
  have htick : (s.setPhase s.toggledPhase).settle.phase.tick = s.nextToggle := congrArg Phase.tick hfacts
  rw [htick]
  refine ⟨s.nextToggle_lt, s.nextToggle_later ht hj,
    (s.params.togglePeriod_dvd_iff _).mp (s.togglePeriod_dvd_nextToggle hj), fun n hlo hhi => ?_,
    congrArg Phase.plane hfacts, congrArg Phase.blink hfacts, congrArg Phase.seq hfacts,
    (congrArg Phase.blankAll hfacts :), ?_⟩
  · have hnone := s.not_dvd_before_nextToggle ht hj hlo hhi
    rwa [Params.togglePeriod_dvd_iff, not_or] at hnone
  · rw [hfacts, State.settle_journey, State.setPhase_journey]

end Sys2Proof.Machine
end

section
/-! The memory's answers to passing transfers (R114, R125, R126, R135): what ends at the port and what goes upstream. -/

namespace Sys2Proof.Machine

section Answers
variable (s : State)

/-! ### The path after the offers at the end of a step -/

@[simp] theorem State.settle_router : s.settle.router = s.router := congrArg PathPart.router s.settle_path
@[simp] theorem State.settle_arb : s.settle.arb = s.arb := congrArg PathPart.arb s.settle_path
@[simp] theorem State.settle_intake : s.settle.intake = s.intake := congrArg PathPart.intake s.settle_path
@[simp] theorem State.settle_loader : s.settle.loader = s.loader := congrArg PathPart.loader s.settle_path
@[simp] theorem State.settle_mem : s.settle.mem = s.mem := congrArg PathPart.mem s.settle_path

/-! ### Memory when a transfer ends (log 4, log 10) -/

/-- The end of a transfer at the memory moves memory and the counter of free values alone. -/
theorem State.finish_eq (r : MemReq) (ok : Bool) :
    s.finish r ok = (s.setMem (s.finish r ok).mem).setFree (s.finish r ok).free := by
  unfold State.finish
  split
  · split <;> rfl
  · rfl

@[simp] theorem State.finish_loader (r : MemReq) (ok : Bool) : (s.finish r ok).loader = s.loader := by
  rw [s.finish_eq]; simp
@[simp] theorem State.finish_router (r : MemReq) (ok : Bool) : (s.finish r ok).router = s.router := by
  rw [s.finish_eq]; simp
@[simp] theorem State.finish_windows (r : MemReq) (ok : Bool) : (s.finish r ok).windows = s.windows := by
  rw [s.finish_eq]; simp
@[simp] theorem State.finish_arb (r : MemReq) (ok : Bool) : (s.finish r ok).arb = s.arb := by
  rw [s.finish_eq]; simp
@[simp] theorem State.finish_intake (r : MemReq) (ok : Bool) : (s.finish r ok).intake = s.intake := by
  rw [s.finish_eq]; simp
@[simp] theorem State.finish_journey (r : MemReq) (ok : Bool) : (s.finish r ok).journey = s.journey := by
  rw [s.finish_eq]; simp
@[simp] theorem State.finish_reported (r : MemReq) (ok : Bool) : (s.finish r ok).reported = s.reported := by
  rw [s.finish_eq]; simp

theorem State.finish_mem_of_read {r : MemReq} (h : r.write = false) (ok : Bool) : (s.finish r ok).mem = s.mem := by
  simp [State.finish, h]

theorem State.finish_mem_of_done {r : MemReq} (h : r.write = true) :
    (s.finish r true).mem = s.mem.writeWords r.line r.first r.words := by
  simp [State.finish, h]

theorem State.finish_mem_of_fault {r : MemReq} (h : r.write = true) :
    (s.finish r false).mem = s.mem.scribble s.free (r.line * 32 + r.first * 4) (4 * r.words.length) := by
  simp [State.finish, h, byteAddr]

/-! ### The port free, and the answers upstream -/

@[simp] theorem State.freePort_path : s.freePort.path = { s.path with arb := { s.arb with port := none } } := rfl
@[simp] theorem State.freePort_arb : s.freePort.arb = { s.arb with port := none } := rfl
@[simp] theorem State.freePort_loader : s.freePort.loader = s.loader := rfl
@[simp] theorem State.freePort_router : s.freePort.router = s.router := rfl
@[simp] theorem State.freePort_intake : s.freePort.intake = s.intake := rfl
@[simp] theorem State.freePort_mem : s.freePort.mem = s.mem := rfl
@[simp] theorem State.freePort_windows : s.freePort.windows = s.windows := rfl
@[simp] theorem State.freePort_journey : s.freePort.journey = s.journey := rfl
@[simp] theorem State.freePort_reported : s.freePort.reported = s.reported := rfl

section Coach
variable (lock : Bool) (a : Answer) (release : Bool)

@[simp] theorem State.answerCoach_router :
    (s.answerCoach lock a release).router = { s.router with coach := none, commit := none, coachAnswer := some a } := rfl
@[simp] theorem State.answerCoach_arb : (s.answerCoach lock a release).arb = s.arb.answered lock := rfl
@[simp] theorem State.answerCoach_loader : (s.answerCoach lock a release).loader = s.loader := rfl
@[simp] theorem State.answerCoach_intake : (s.answerCoach lock a release).intake = s.intake := rfl
@[simp] theorem State.answerCoach_mem : (s.answerCoach lock a release).mem = s.mem := rfl
@[simp] theorem State.answerCoach_windows : (s.answerCoach lock a release).windows = s.windows := rfl
@[simp] theorem State.answerCoach_journey : (s.answerCoach lock a release).journey = s.journey := rfl

end Coach

@[simp] theorem Windows.latch_setLatch (x : Windows) (w : Win) (l : Option Latch) : (x.setLatch w l).latch w = l := by
  cases w <;> rfl

section Panel
variable (frees : Option Win) (a : Answer)

@[simp] theorem State.answerPanel_path :
    (s.answerPanel frees a).path = { s.path with router := { s.router with panel := none, panelAnswer := some a } } := by
  cases frees <;> rfl
@[simp] theorem State.answerPanel_journey : (s.answerPanel frees a).journey = s.journey := by
  cases frees <;> rfl
@[simp] theorem State.answerPanel_reported : (s.answerPanel frees a).reported = s.reported := by
  cases frees <;> rfl
theorem State.answerPanel_windows_none : (s.answerPanel none a).windows = s.windows := rfl
theorem State.answerPanel_windows_some (w : Win) :
    (s.answerPanel (some w) a).windows = s.windows.setLatch w none := rfl

end Panel

/-! ### Whose transfer the memory answers -/

theorem State.presentedBy_owner {p : Presented} {o : Owner} (hp : s.arb.port = some p) (ho : p.owner = o) :
    s.presentedBy o = some p := by
  simp [State.presentedBy, hp, ho]

theorem State.presentedBy_other {p : Presented} {o : Owner} (hp : s.arb.port = some p) (ho : p.owner ≠ o) :
    s.presentedBy o = none := by
  simp [State.presentedBy, hp, ho]

theorem State.coachAtPort_eq {p : Presented} {c : CoachTx} (hp : s.arb.port = some p) (ho : p.owner = .coach)
    (hc : s.router.coach = some c) : s.coachAtPort = some (p, c) := by
  simp [State.coachAtPort, s.presentedBy_owner hp ho, hc]

/-- The coach computer's passing transfer answered. -/
theorem State.takePassingAnswer_coach {p : Presented} {c : CoachTx} (ok : Bool) (hp : s.arb.port = some p)
    (ho : p.owner = .coach) (hc : s.router.coach = some c) (hk : c.kind.passing = true) :
    s.takePassingAnswer ok = (s.coachPassed p c ok).settle := by
  simp [State.takePassingAnswer, s.coachAtPort_eq hp ho hc, hk]

/-- The panel scanner's read answered. -/
theorem State.takePassingAnswer_panel {p : Presented} {x : PanelTx} (ok : Bool) (hp : s.arb.port = some p)
    (ho : p.owner = .panel) (hx : s.router.panel = some x) :
    s.takePassingAnswer ok = (s.freePort.answerPanel x.frees (passAnswer ok p.data)).settle := by
  have hcoach : s.presentedBy .coach = none := s.presentedBy_other hp (by rw [ho]; decide)
  simp [State.takePassingAnswer, State.coachAtPort, hcoach, s.presentedBy_owner hp ho, State.panelPassed, hx]

/-! ### The coach computer's transfer answered with nothing handed to the acknowledge or the Profile Loader -/

/-- An answer that hands nothing on: to a read or a write, whatever its answer, or any passing transfer answered FAULT. -/
def CoachKind.AnsweredPlain (k : CoachKind) (ok : Bool) : Prop :=
  k = .write ∨ (∃ i o, k = .read i o) ∨ (ok = false ∧ (k = .ack ∨ k = .profile))

theorem CoachKind.AnsweredPlain.passing {k : CoachKind} {ok : Bool} (h : k.AnsweredPlain ok) : k.passing = true := by
  obtain rfl | ⟨i, o, rfl⟩ | ⟨_, rfl | rfl⟩ := h <;> rfl

/-- A read's or a write's DONE brings nothing before the answer upstream, and a FAULT never does. -/
theorem State.passedDone_plain {c : CoachTx} {ok : Bool} (h : c.kind.AnsweredPlain ok) :
    (if ok then s.passedDone c else s) = s := by
  obtain hk | ⟨i, o, hk⟩ | ⟨rfl, _⟩ := h
  · simp [State.passedDone, hk]
  · simp [State.passedDone, hk]
  · rfl

/-- No fetch is presented by an answer that begins none. -/
theorem State.fetchSince_same {before : Option (List Word)} (h : s.loader.fetch = before) : s.fetchSince before = s :=
  if_pos (.inl h)

theorem State.coachPassed_plain (p : Presented) {c : CoachTx} {ok : Bool} (h : c.kind.AnsweredPlain ok) :
    s.coachPassed p c ok =
      (s.finish p.req ok).freePort.answerCoach c.t.lock (passAnswer ok p.data) c.releases := by
  simp only [State.coachPassed, State.passedDone_plain _ h]
  exact State.fetchSince_same _ (by simp)

/-- A transfer releases the Position read latch exactly when it reads that line with word 7 among its words (R169). -/
theorem CoachTx.releases_iff (c : CoachTx) :
    c.releases = true ↔
      (∃ o, c.kind = .read (some 2) o) ∧ c.req.first ≤ 7 ∧ 7 < c.req.first + c.req.count := by
  unfold CoachTx.releases
  cases c.kind with
  | read idx o => simp [releasesLatch, includesWord]
  | write => simp
  | ack => simp
  | profile => simp
  | commit => simp

/-! ### The command -/

theorem exec_passingTransferAnswer (ok : Bool) :
    exec (.passingTransferAnswer ok) s = .next (s.takePassingAnswer ok) := rfl

theorem exec_passingTransferAnswer_coach {p : Presented} {c : CoachTx} {ok : Bool} (hp : s.arb.port = some p)
    (ho : p.owner = .coach) (hc : s.router.coach = some c) (hk : c.kind.AnsweredPlain ok) :
    exec (.passingTransferAnswer ok) s = .next
      ((s.finish p.req ok).freePort.answerCoach c.t.lock (passAnswer ok p.data) c.releases).settle := by
  rw [exec_passingTransferAnswer, s.takePassingAnswer_coach ok hp ho hc hk.passing, s.coachPassed_plain p hk]

theorem exec_passingTransferAnswer_panel {p : Presented} {x : PanelTx} (ok : Bool) (hp : s.arb.port = some p)
    (ho : p.owner = .panel) (hx : s.router.panel = some x) :
    exec (.passingTransferAnswer ok) s = .next
      (s.freePort.answerPanel x.frees (passAnswer ok p.data)).settle := by
  rw [exec_passingTransferAnswer, s.takePassingAnswer_panel ok hp ho hx]

end Answers

/-- Settles O30: the coach computer's answer ends the transfer in memory and at the port, the panel's at the port alone. -/
theorem passingTransferAnswered : Obligations.PassingTransferAnswered := by
  refine ⟨fun s p c ok hp ho hc hk => ?coach, fun s p x ok hp ho hx => ?panel⟩
  case coach =>
    refine ⟨_, exec_passingTransferAnswer_coach s hp ho hc hk, by simp, by simp, by simp [passAnswer], by simp, by simp,
      by simp, fun hr => ?read, fun hw hok => ?done, fun hw hok => ?fault, ?reported⟩
    case read => simpa using s.finish_mem_of_read hr ok
    case done => subst hok; simpa using s.finish_mem_of_done hw
    case fault => subst hok; exact ⟨s.free, by simpa using s.finish_mem_of_fault hw⟩
    case reported =>
      refine Eq.trans (b := s.reported.coachTransfer c.releases) (by simp) (congrArg _ ?_)
      rw [Bool.eq_iff_iff, CoachTx.releases_iff]
      split
      · next o hread => simp [hread]
      · next hother => exact ⟨fun ⟨⟨o, hread⟩, _⟩ => absurd hread (hother o), fun h => nomatch h⟩
  case panel =>
    refine ⟨_, exec_passingTransferAnswer_panel s ok hp ho hx, by simp, by simp, by simp [passAnswer],
      fun w hw => ?latch, fun hn => ?keeps⟩
    case latch => simp [hw, State.answerPanel_windows_some]
    case keeps => simp [hn, State.answerPanel_windows_none]

end Sys2Proof.Machine
end
